-- ==== Sys2Proof/Word.lean ====
section
/-! DEFINITION. The plain data words of the HD44780 parallel-bus controller: bytes, pin levels, pin sets, the
per-pin settings of the GPIO subsystem, the items of the command port, and the bus-cycle code. -/

namespace Sys2Proof

/-- A byte, bit 0 its least significant bit (00_scope.md section 6). -/
abbrev Byte := BitVec 8

/-- A pin level: `false` is 0 (logic low), `true` is 1 (logic high) (00_scope.md section 6). -/
abbrev Level := Bool

/-- A pin identifier, a natural number (00_scope.md section 6). -/
abbrev PinId := Nat

/-- A finite set of pins. It is kept strictly ascending, so that equal sets are equal lists
(`PinSet.ofList` in Machine/Operands.lean builds it). -/
abbrev PinSet := List PinId

/-- `MODE[p]` (10_state.md R16). -/
inductive PinMode where
  | unconf | input | output
  deriving DecidableEq, Repr, Inhabited

/-- The direction a `PinConfig` call gives its pins: `IN` or `OUT` (20_memory.md R51). -/
inductive Dir where
  | input | output
  deriving DecidableEq, Repr

/-- `PULL[p]` (10_state.md R16). -/
inductive Pull where
  | none | up | down
  deriving DecidableEq, Repr, Inhabited

/-- `INTR[p]` (10_state.md R16). -/
inductive Intr where
  | off | on
  deriving DecidableEq, Repr, Inhabited

/-- One item the host puts on the command port: a 32-bit command header, or one payload beat of a `SEND`
(30_encoding.md R71, R73). -/
inductive PortWord where
  | header (w : BitVec 32)
  | beat (b : Byte)
  deriving DecidableEq, Repr

/-- The words of one instruction: the port items of a host command, or the two-line code `RS, RW` of a bus cycle,
`RS` at bit 1 and `RW` at bit 0 (30_encoding.md R75). -/
inductive Words where
  | port (ws : List PortWord)
  | bus (code : BitVec 2)
  deriving DecidableEq, Repr

end Sys2Proof
end

