-- ==== Sys2Proof/Config.lean ====
section
/-! DEFINITION. What one instance of the block fixes (the Display Handle and the OPEN parameters of 00_scope.md R4),
the values `State.reset` takes for them, and the free values: constants without a body, of which nothing can be
proved. -/

namespace Sys2Proof

/-- The Display Handle (10_state.md R10): the physical pins of one wired display controller. `dataPins` lists
`DATA_PIN[0]`, `DATA_PIN[1]`, … in bit order. `busWidth` is a natural number of no stated width (R11). -/
structure Handle where
  rsPin    : PinId
  rwPin    : PinId
  enPin    : PinId
  busWidth : Nat
  dataPins : List PinId
  deriving DecidableEq, Repr

/-- The OPEN parameters of 00_scope.md R4 other than `PIN_COUNT` (which is the length of the pin space): the seven
instruction bytes of 30_encoding.md R79 and the optional bound on busy samples of 41_wait_ready.md R130. A legal
`pollLimit` is `none` or `some n` with `n ≥ 1` (log 17, DEDUCED, for `some 0`). -/
structure Params where
  clearInstruction    : Byte
  initFunctionSet4    : Byte
  initFunctionSet8    : Byte
  initDisplayControl4 : Byte
  initDisplayControl8 : Byte
  initEntryMode4      : Byte
  initEntryMode8      : Byte
  pollLimit           : Option Nat
  deriving DecidableEq, Repr

/-- DESIGN CHOICE (log 1), unsafe: the handle of `State.reset`, the one handle the source names (95_test_vectors.md
S9). Statements quantify over every handle; only statements about `State.reset` itself see this one. -/
def Config.handle : Handle where
  rsPin := 10
  rwPin := 11
  enPin := 12
  busWidth := 8
  dataPins := [2, 3, 4, 5, 6, 7, 8, 9]

/-- DESIGN CHOICE (log 2), unsafe: `PIN_COUNT` of `State.reset`, the least value for which `Config.handle` is
well-formed (20_memory.md R40 leaves it OPEN). -/
def Config.pinCount : Nat := 13

/-- Free value (log 3): `CLEAR_INSTRUCTION` is an OPEN parameter (30_encoding.md R79). -/
opaque Config.clearInstruction : Byte

/-- Free value (log 3): `INIT_FUNCTION_SET(w)` is an OPEN parameter (30_encoding.md R79). -/
opaque Config.initFunctionSet : Nat → Byte

/-- Free value (log 3): `INIT_DISPLAY_CONTROL(w)` is an OPEN parameter (30_encoding.md R79). -/
opaque Config.initDisplayControl : Nat → Byte

/-- Free value (log 3): `INIT_ENTRY_MODE(w)` is an OPEN parameter (30_encoding.md R79). -/
opaque Config.initEntryMode : Nat → Byte

/-- The parameters of `State.reset`: free instruction bytes, and `POLL_LIMIT = none`, the spec's default (R130). -/
def Config.params : Params where
  clearInstruction := Config.clearInstruction
  initFunctionSet4 := Config.initFunctionSet 4
  initFunctionSet8 := Config.initFunctionSet 8
  initDisplayControl4 := Config.initDisplayControl 4
  initDisplayControl8 := Config.initDisplayControl 8
  initEntryMode4 := Config.initEntryMode 4
  initEntryMode8 := Config.initEntryMode 8
  pollLimit := none

/-- Free value (log 4): `LATCH_RESET[p]`, the output latch of pin `p` before the block first writes it
(00_scope.md R4, 10_state.md R29). -/
opaque Config.latchReset : PinId → Level

/-- Free value (log 4): `PULL[p]` at reset is unspecified (10_state.md R29). -/
opaque Config.pullReset : PinId → Pull

/-- Free value (log 4): `INTR[p]` at reset is unspecified (10_state.md R29). -/
opaque Config.intrReset : PinId → Intr

/-- Free value (log 5): the level an input pin shows at a `PinRead`, applied to the draw counter and the pin
(20_memory.md R55), once the state's own list of coming samples is used up and it
names no level to go on with. -/
opaque Config.freeLevel : Nat → PinId → Level

/-- Free value (log 6): whether a `PinConfig` call fails, applied to the draw counter (20_memory.md R53), once the
state's own list of coming outcomes is used up. -/
opaque Config.freeConfigFails : Nat → Bool

/-- Free values (log 7): `MODE`, `PULL` and `INTR` of a pin after a failed `PinConfig` call on it are unspecified
(20_memory.md R53), applied to the draw counter and the pin. -/
opaque Config.failedMode : Nat → PinId → PinMode
opaque Config.failedPull : Nat → PinId → Pull
opaque Config.failedIntr : Nat → PinId → Intr

end Sys2Proof
end

