-- ==== Sys2Proof/Syntax.lean ====
section
/-! DEFINITION. The instructions: one constructor per row of spec/opcode_table.json, the five host commands
(30_encoding.md R70) and the three bus cycles the block generates on the wire (30_encoding.md R76). -/

namespace Sys2Proof

/-- An instruction. `isInstruction` is the flag `I` (`true` is 1: the bytes go to the controller's instruction
register). The bus cycles have no operand of their own: the level of register-select is fixed by the mnemonic and the
byte is the register `CUR_BYTE` (43_bus_cycles.md R171). -/
inductive Instr where
  | init
  | waitReady
  | send (isInstruction : Bool) (bytes : List Byte)
  | sendSingle (isInstruction : Bool) (byte : Byte)
  | clear
  | irWrite
  | drWrite
  | busyRead
  deriving DecidableEq, Repr

end Sys2Proof
end

