-- ==== Sys2Proof/WellFormed.lean ====
section
/-! DEFINITION. Which instructions have an encoding. -/

namespace Sys2Proof

/-- An instruction that the binary form of 30_encoding.md R71 and R73 can write down: the 16-bit `LEN` bounds the
payload of a `SEND` at 65535 bytes. The abstract `SEND` of R70 has no bound, and `exec` runs it at any length (log 25,
DEDUCED). -/
def Instr.wellFormed : Instr → Bool
  | .send _ bytes => decide (bytes.length < 65536)
  | .init | .waitReady | .sendSingle _ _ | .clear | .irWrite | .drWrite | .busyRead => true

end Sys2Proof
end

