-- ==== Sys2Proof/Decode.lean ====
section
/-! DEFINITION. The decoder of the command port and of the bus-cycle code, total and rejecting by name
(30_encoding.md R71 to R77), then the encoder written from the same tables. -/

namespace Sys2Proof

/-- Why a word is no instruction of the block (30_encoding.md R74, R77). -/
inductive Reject where
  /-- `op` is `0x0` or `0x6` to `0xF`. -/
  | reservedOpcode
  /-- The field `zero`, bits 27:17, is not 0. -/
  | zeroFieldSet
  /-- `I = 1` in `INIT`, `WAIT_READY` or `CLEAR`. -/
  | flagOnPlainCommand
  /-- `arg ≠ 0` in `INIT`, `WAIT_READY` or `CLEAR`. -/
  | argumentOnPlainCommand
  /-- `arg[15:8] ≠ 0` in `SEND_SINGLE`. -/
  | argumentHighByteSet
  /-- A payload beat stands where a header is due (log 13). -/
  | beatWithoutHeader
  /-- A header stands where a payload beat of the current `SEND` is due (log 13). -/
  | headerInsidePayload
  /-- The bus-cycle code `RS = 1, RW = 1`. -/
  | reservedBusCycle
  deriving DecidableEq, Repr

/-- What a header word announces; a `SEND` still needs `len` payload beats. -/
inductive HeaderForm where
  | init
  | waitReady
  | send (isInstruction : Bool) (len : Nat)
  | sendSingle (isInstruction : Bool) (byte : Byte)
  | clear
  | rejected (why : Reject)
  deriving DecidableEq, Repr

/-- What the decoder answers. `incomplete`: the items so far are the beginning of a command whose last beat has not
arrived, or there are none (30_encoding.md R73). -/
inductive Decoded where
  | instr (i : Instr) (rest : List PortWord)
  | incomplete
  | rejected (why : Reject)
  deriving DecidableEq, Repr

/-- The fields of a header word (30_encoding.md R71). -/
def headerOp (w : BitVec 32) : BitVec 4 := w.extractLsb' 28 4
def headerZero (w : BitVec 32) : BitVec 11 := w.extractLsb' 17 11
def headerFlag (w : BitVec 32) : Bool := w.getLsbD 16
def headerArg (w : BitVec 32) : BitVec 16 := w.extractLsb' 0 16
def headerArgHigh (w : BitVec 32) : Byte := w.extractLsb' 8 8
def headerArgLow (w : BitVec 32) : Byte := w.extractLsb' 0 8

/-- `INIT`, `WAIT_READY` and `CLEAR`: `I` and `arg` must be 0 (30_encoding.md R71). -/
def plainCommand (w : BitVec 32) (form : HeaderForm) : HeaderForm :=
  if headerFlag w then .rejected .flagOnPlainCommand
  else if headerArg w ≠ 0 then .rejected .argumentOnPlainCommand
  else form

/-- The header decoder (30_encoding.md R71, R72, R74). -/
def decodeHeader (w : BitVec 32) : HeaderForm :=
  if headerOp w = 0 ∨ 6 ≤ (headerOp w).toNat then .rejected .reservedOpcode
  else if headerZero w ≠ 0 then .rejected .zeroFieldSet
  else if headerOp w = 1 then plainCommand w .init
  else if headerOp w = 2 then plainCommand w .waitReady
  else if headerOp w = 3 then .send (headerFlag w) (headerArg w).toNat
  else if headerOp w = 4 then
    if headerArgHigh w ≠ 0 then .rejected .argumentHighByteSet
    else .sendSingle (headerFlag w) (headerArgLow w)
  else plainCommand w .clear

/-- The payload of a `SEND`: exactly `n` beats, `bytes[0]` first (30_encoding.md R73). `got` holds the beats taken so
far, the latest first. -/
def decodePayload (isInstruction : Bool) (got : List Byte) : Nat → List PortWord → Decoded
  | 0, ws => .instr (.send isInstruction got.reverse) ws
  | _ + 1, [] => .incomplete
  | _ + 1, .header _ :: _ => .rejected .headerInsidePayload
  | n + 1, .beat b :: ws => decodePayload isInstruction (b :: got) n ws

/-- The decoder of the command port: one header, then the payload beats of a `SEND`; it answers the command and what
stands on the port after it. -/
def decodePort : List PortWord → Decoded
  | [] => .incomplete
  | .beat _ :: _ => .rejected .beatWithoutHeader
  | .header w :: ws =>
    match decodeHeader w with
    | .init => .instr .init ws
    | .waitReady => .instr .waitReady ws
    | .send f n => decodePayload f [] n ws
    | .sendSingle f b => .instr (.sendSingle f b) ws
    | .clear => .instr .clear ws
    | .rejected why => .rejected why

/-- The bus-cycle code (30_encoding.md R76, R77). -/
def decodeBusCycle (code : BitVec 2) : Decoded :=
  if code = 0b00#2 then .instr .irWrite []
  else if code = 0b10#2 then .instr .drWrite []
  else if code = 0b01#2 then .instr .busyRead []
  else .rejected .reservedBusCycle

/-- The decoder, total on any words. -/
def decode : Words → Decoded
  | .port ws => decodePort ws
  | .bus code => decodeBusCycle code

/-- `n` payload beats laid out in the bits of `v`, the first beat lowest. -/
def beatsOfBits : Nat → Nat → List PortWord
  | 0, _ => []
  | n + 1, v => .beat (BitVec.ofNat 8 v) :: beatsOfBits n (v / 256)

/-- How many payload beats follow a header: `LEN` for a `SEND`, none for any other (30_encoding.md R73). -/
def payloadLength (w : BitVec 32) : Nat :=
  match decodeHeader w with
  | .send _ n => n
  | .init | .waitReady | .sendSingle _ _ | .clear | .rejected _ => 0

/-- The port items of a command whose bits are `w`: the 32-bit header in bits 31:0, then beat `k` in bits
`39 + 8k : 32 + 8k`. -/
def portWordsOfBits (w : Nat) : List PortWord :=
  .header (BitVec.ofNat 32 w) :: beatsOfBits (payloadLength (BitVec.ofNat 32 w)) (w / 4294967296)

/-- The words of a row of spec/opcode_table.json: a row of at most one byte is a two-line bus-cycle code (a number above
3 has no such code), any longer row is a command header with its payload. -/
def wordsOfTableBits (nbits w : Nat) : Option Words :=
  if nbits ≤ 8 then if w < 4 then some (.bus (BitVec.ofNat 2 w)) else none
  else some (.port (portWordsOfBits w))

/-- The instruction the decoder reads from a row's bits, numbered as spec/opcode_table.json numbers them (log 24, DESIGN
CHOICE, for the beats). -/
def decodeTableWord (nbits w : Nat) : Option Instr :=
  match wordsOfTableBits nbits w with
  | none => none
  | some ws =>
    match decode ws with
    | .instr i _ => some i
    | .incomplete => none
    | .rejected _ => none

/-- A header word from its fields: `op[31:28] zero[27:17] I[16] arg[15:0]` with `zero = 0` (30_encoding.md R71). -/
def headerWord (op : BitVec 4) (isInstruction : Bool) (arg : BitVec 16) : BitVec 32 :=
  op ++ 0#11 ++ BitVec.ofBool isInstruction ++ arg

/-- The words of an instruction (30_encoding.md R71 to R73, R76). -/
def encode : Instr → Words
  | .init => .port [.header (headerWord 1#4 false 0#16)]
  | .waitReady => .port [.header (headerWord 2#4 false 0#16)]
  | .send f bytes =>
    .port (.header (headerWord 3#4 f (BitVec.ofNat 16 bytes.length)) :: bytes.map PortWord.beat)
  | .sendSingle f b => .port [.header (headerWord 4#4 f (0#8 ++ b))]
  | .clear => .port [.header (headerWord 5#4 false 0#16)]
  | .irWrite => .bus 0b00#2
  | .drWrite => .bus 0b10#2
  | .busyRead => .bus 0b01#2

end Sys2Proof
end

