-- ==== Sys2Proof/Machine/State.lean ====
section
/-! DEFINITION. The state of one instance of the block, why a step can stop, and the state after reset
(10_state.md). -/

namespace Sys2Proof.Machine

/-- The settings the GPIO subsystem holds for one pin (10_state.md R16). -/
structure Pin where
  mode  : PinMode
  pull  : Pull
  intr  : Intr
  latch : Level
  deriving DecidableEq, Repr

/-- The pin space (20_memory.md R40): entry `p` is pin `p`, and its length is `PIN_COUNT`. Every address has exactly one
entry, so equal pin spaces are equal lists (log 8). -/
abbrev PinSpace := List Pin

/-- The sub-steps of `CONFIG` (10_state.md R20). -/
inductive ConfigStep where
  | cf0 | cf1 | cf2
  deriving DecidableEq, Repr

/-- The sub-steps of `WAIT_BUSY` (10_state.md R20). -/
inductive BusyStep where
  | wb0 | wb1 | wb2 | wb3 | wb4 | wb5 | wb6
  deriving DecidableEq, Repr

/-- The sub-steps of `ADDRESS_PHASE` (10_state.md R20). -/
inductive AddressStep where
  | ap0 | ap1
  deriving DecidableEq, Repr

/-- The sub-steps of `STROBE` (10_state.md R20). -/
inductive StrobeStep where
  | st0 | st1
  deriving DecidableEq, Repr

/-- `PHASE` with its `STEP` (10_state.md R19, R20). `STEP` has a meaning only together with `PHASE`, so it is the
constructor's argument; `DATA_DRIVE` has the one sub-step `DD0`, and `IDLE` and `FAULT` have none. The value names the
sub-step the block executes next. -/
inductive Phase where
  | idle
  | config (sub : ConfigStep)
  | waitBusy (sub : BusyStep)
  | addressPhase (sub : AddressStep)
  | dataDrive
  | strobe (sub : StrobeStep)
  | fault
  deriving DecidableEq, Repr

/-- `CMD` (10_state.md R21): the command in progress; `SEND_SINGLE` and `CLEAR` run as `SEND`. -/
inductive Cmd where
  | none | init | waitReady | send
  deriving DecidableEq, Repr

/-- The error causes of 60_exceptions.md R193; the spec's code of each is `ErrorCode.number` of Ops.lean. -/
inductive ErrorCode where
  | badWidth | gpioConfig | timeout
  deriving DecidableEq, Repr

/-- A GPIO event of the trace (00_scope.md section 6): `CFG(P,dir)`, `W(p,v)`, `R(p)=v`, `SC(S,C)`. -/
inductive Event where
  | cfg (pins : PinSet) (dir : Dir)
  | w (p : PinId) (v : Level)
  | r (p : PinId) (v : Level)
  | sc (set clr : PinSet)
  deriving DecidableEq, Repr

/-- The state. The handle and the parameters are constants of the instance (10_state.md R13): no step changes them (log
27). The last seven fields are the model's own (log 9, DESIGN CHOICE): `timedOut`, the report list, the host's input and the
environment's answers. -/
structure State where
  /-- The Display Handle (R10). -/
  handle   : Handle
  /-- The OPEN parameters (R4). -/
  params   : Params
  /-- `MODE[p]`, `PULL[p]`, `INTR[p]`, `LATCH[p]` for every pin (R16). -/
  pins     : PinSpace
  /-- `PHASE` and `STEP` (R19, R20). -/
  phase    : Phase
  /-- `CMD` (R21). -/
  cmd      : Cmd
  /-- `QUEUE`: the bytes of the current command not yet started (R21). -/
  queue    : List Byte
  /-- `CUR_BYTE` (R21). -/
  curByte  : Byte
  /-- `CUR_I` (R21). -/
  curI     : Bool
  /-- `SET_MASK` (R21). -/
  setMask  : PinSet
  /-- `CLR_MASK` (R21). -/
  clrMask  : PinSet
  /-- `BF`, the last sampled busy level (R22). -/
  bf       : Level
  /-- `FAULT`: `none`, or the cause of the `ConfigurationError` (R23), whose code is `State.faultNumber`. -/
  fault    : Option ErrorCode
  /-- `INITED` (R24). -/
  inited   : Bool
  /-- `POLLS`: the samples taken in the current handshake, kept only when `POLL_LIMIT` is `some n` (R26). -/
  polls    : Nat
  /-- `TRACE`: the GPIO events since reset, oldest first (R25). -/
  trace    : List Event
  /-- The model's own: the current handshake reached `POLL_LIMIT` (41_wait_ready.md R130); read at `WB6` (log 28, DEDUCED). -/
  timedOut : Bool
  /-- The model's own: the errors reported to the host, oldest first (60_exceptions.md R195, R201; log 21, DESIGN
  CHOICE). -/
  reports  : List ErrorCode
  /-- The model's own: what the host will put on the command port, next item first (30_encoding.md R70, R73; log 16,
  DESIGN CHOICE). -/
  port     : List PortWord
  /-- The model's own: the environment's answers to the coming `PinRead` calls, next first (20_memory.md R55). -/
  samples  : List Level
  /-- The model's own: what the environment answers to every `PinRead` once `samples` is used up, if that is one level for
  ever, such as a controller that is stuck busy (41_wait_ready.md R125); `none` is a free value for each (log 5). -/
  sampleAfter : Option Level
  /-- The model's own: whether each coming `PinConfig` call fails, next first (20_memory.md R53). -/
  cfgFails : List Bool
  /-- The model's own: how many draws the environment has answered; it numbers the free values. -/
  draws    : Nat
  deriving DecidableEq, Repr

/-- The machine stops. -/
inductive Fault where
  /-- Raised by a step in `PHASE = FAULT` with no command presented: the fault state is absorbing and has no step
  (60_exceptions.md R195; log 19, DESIGN CHOICE). `reg` is the register `FAULT`. Safe: the spec gives no step there. -/
  | stopped (reg : Option ErrorCode)
  deriving DecidableEq, Repr

/-- The spec gives the situation no meaning, and the machine takes no step. Every one is safe. -/
inductive Refusal where
  /-- An instruction without a meaning yet, by its mnemonic: no arm raises it. Safe. -/
  | notModelled (mnemonic : String)
  /-- Raised by every command, on a handle that breaks 10_state.md R14 or R12, and by a busy read on a handle without
  a `BF_PIN`. Safe. -/
  | malformedHandle
  /-- Raised by every command once a `ConfigurationError` was raised (60_exceptions.md R204). Safe. -/
  | afterFault
  /-- Raised by every command presented while another runs (60_exceptions.md R204). Safe. -/
  | busy
  /-- Raised by every command but `INIT` while `INITED = 0` (10_state.md R24). Safe. -/
  | notInitialised
  /-- Raised by the step on port items that are no command (30_encoding.md R74). Safe. -/
  | reservedEncoding (why : Reject)
  /-- Raised by `PinWrite` and `PinSetClear` on a pin that is not an output (20_memory.md R56). Safe. -/
  | pinNotOutput
  /-- Raised by `PinRead` on a pin that is not an input (20_memory.md R56). Safe. -/
  | pinNotInput
  /-- Raised by a bus cycle where the sequencer does not generate it (43_bus_cycles.md R171, R172). Safe. -/
  | cycleNotInProgress
  deriving DecidableEq, Repr

/-- The pins `p`, `p + 1`, … right after reset: `MODE = UNCONF`, everything else a free value (10_state.md R29). -/
def resetPinsFrom (p : PinId) : Nat → PinSpace
  | 0 => []
  | n + 1 =>
    { mode := .unconf, pull := Config.pullReset p, intr := Config.intrReset p, latch := Config.latchReset p } ::
      resetPinsFrom (p + 1) n

/-- The reset event for an instance with the given handle, parameters and `PIN_COUNT`: every register at the value of
10_state.md R29 (70_reset_and_hazards.md R220; log 18, DEDUCED). `CUR_BYTE`, `CUR_I`, the masks and `BF` are unspecified there; the model
names zero and the empty set (log 10, DESIGN CHOICE, unsafe). -/
def State.construct (handle : Handle) (params : Params) (pinCount : Nat) : State where
  handle := handle
  params := params
  pins := resetPinsFrom 0 pinCount
  phase := .idle
  cmd := .none
  queue := []
  curByte := 0#8
  curI := false
  setMask := []
  clrMask := []
  bf := false
  fault := none
  inited := false
  polls := 0
  trace := []
  timedOut := false
  reports := []
  port := []
  samples := []
  sampleAfter := none
  cfgFails := []
  draws := 0

/-- The machine right after reset: the reset event of the instance that Config names (log 1, log 2). -/
def State.reset : State :=
  State.construct Config.handle Config.params Config.pinCount

end Sys2Proof.Machine
end

