-- ==== Sys2Proof/Machine/Operands.lean ====
section
/-! DEFINITION. Operands: pin sets, the pins a handle names, which handles are well-formed, the masks of a byte, and the
instruction bytes the block itself sends. -/

namespace Sys2Proof.Machine

/-- Add a pin to a set kept strictly ascending. -/
def insertPin (p : PinId) : PinSet → PinSet
  | [] => [p]
  | q :: qs => if p < q then p :: q :: qs else if p = q then q :: qs else q :: insertPin p qs

/-- The set of the listed pins. -/
def pinSetOf : List PinId → PinSet
  | [] => []
  | p :: ps => insertPin p (pinSetOf ps)

/-- The mask of a pin set as a number: the sum of `2^p` over its pins (00_scope.md section 6). -/
def maskNumber : PinSet → Nat
  | [] => 0
  | p :: ps => 2 ^ p + maskNumber ps

/-- `BUS_WIDTH ∈ {4, 8}` (10_state.md R11). -/
abbrev legalWidth (h : Handle) : Prop := h.busWidth = 4 ∨ h.busWidth = 8

/-- The data pins in use: `DATA_PIN[0]`, …, `DATA_PIN[BUS_WIDTH-1]` (10_state.md R10). -/
def dataList (h : Handle) : List PinId := h.dataPins.take h.busWidth

/-- `DATA` (00_scope.md section 6). -/
def dataSet (h : Handle) : PinSet := pinSetOf (dataList h)

/-- The three control pins. -/
def ctrlList (h : Handle) : List PinId := [h.rsPin, h.rwPin, h.enPin]

/-- `CTRL` (00_scope.md section 6). -/
def ctrlSet (h : Handle) : PinSet := pinSetOf (ctrlList h)

/-- `BF_PIN = DATA_PIN[BUS_WIDTH-1]` (10_state.md R22, 41_wait_ready.md R123), where the handle has such a pin. -/
def bfPin (h : Handle) : Option PinId := h.dataPins[h.busWidth - 1]?

/-- The pins whose distinctness and range 10_state.md R14 asks for. With a `BUS_WIDTH` other than 4 or 8 the contents of
`DATA_PIN` are never read (R12), so they are not asked about (log 11). -/
def usedPins (h : Handle) : List PinId :=
  if legalWidth h then ctrlList h ++ dataList h else ctrlList h

/-- A well-formed handle on a platform with pins `0 .. pinCount-1`: pairwise distinct pins below `PIN_COUNT` (10_state.md
R14), and, at a legal width, as many data pins as the bus is wide (R12). -/
abbrev handleWellFormed (h : Handle) (pinCount : Nat) : Prop :=
  (usedPins h).Nodup ∧ (∀ p ∈ usedPins h, p < pinCount) ∧ (legalWidth h → h.dataPins.length = h.busWidth)

/-- The data pins whose bit of `b` is `v`, for the bit indices `j .. j + (number of pins) - 1`. -/
def pinsWithBit (b : Byte) (v : Bool) : Nat → List PinId → List PinId
  | _, [] => []
  | j, p :: ps => if b.getLsbD j = v then p :: pinsWithBit b v (j + 1) ps else pinsWithBit b v (j + 1) ps

/-- `SET_MASK` of a byte: the data pins `DATA_PIN[j]`, `j < BUS_WIDTH`, with bit `j` of the byte 1 (30_encoding.md
R78). -/
def setMaskOf (h : Handle) (b : Byte) : PinSet := pinSetOf (pinsWithBit b true 0 (dataList h))

/-- `CLR_MASK` of a byte: the data pins with bit `j` of the byte 0 (30_encoding.md R78). -/
def clrMaskOf (h : Handle) (b : Byte) : PinSet := pinSetOf (pinsWithBit b false 0 (dataList h))

/-- The level of register-select for the flag `I`: low if it is 1, high otherwise (42_send.md R145). -/
def rsLevel (isInstruction : Bool) : Level := !isInstruction

/-- `INIT_FUNCTION_SET(w)`; the block asks for it at the widths 4 and 8 only (30_encoding.md R79). -/
def functionSet (ps : Params) (w : Nat) : Byte := if w = 4 then ps.initFunctionSet4 else ps.initFunctionSet8

/-- `INIT_DISPLAY_CONTROL(w)` (30_encoding.md R79). -/
def displayControl (ps : Params) (w : Nat) : Byte :=
  if w = 4 then ps.initDisplayControl4 else ps.initDisplayControl8

/-- `INIT_ENTRY_MODE(w)` (30_encoding.md R79). -/
def entryMode (ps : Params) (w : Nat) : Byte := if w = 4 then ps.initEntryMode4 else ps.initEntryMode8

/-- The bring-up sequence, in order (40_initialize.md R105). -/
def bringUpBytes (ps : Params) (w : Nat) : List Byte :=
  [ps.clearInstruction, functionSet ps w, displayControl ps w, entryMode ps w]

end Sys2Proof.Machine
end

