-- ==== Sys2Proof/Machine/Ops.lean ====
section
/-! DEFINITION. The named operations over the pin space and the registers: the environment's draws, the four GPIO
primitives (20_memory.md R51 to R56), raising an error (60_exceptions.md R195, R201), and starting and ending a byte or
a command (42_send.md R141). -/

namespace Sys2Proof.Machine

/-- What a step answers. -/
abbrev Result := Host.Outcome State Fault Refusal

/-- `PIN_COUNT` (20_memory.md R40). -/
def State.pinCount (s : State) : Nat := s.pins.length

/-- The handle is well-formed on this platform (10_state.md R14). -/
def State.handleOk (s : State) : Bool := decide (handleWellFormed s.handle s.pinCount)

/-- `MODE[p]`; a number that is no pin of the platform is never configured. -/
def State.modeOf (s : State) (p : PinId) : PinMode :=
  match s.pins[p]? with
  | some x => x.mode
  | none => .unconf

/-- `LATCH[p]`, for a pin of the platform. -/
def State.latchOf (s : State) (p : PinId) : Option Level := s.pins[p]?.map Pin.latch

/-- The settings of one pin without its latch: `MODE[p]`, `PULL[p]`, `INTR[p]`. -/
def State.settingsOf (s : State) (p : PinId) : Option (PinMode × Pull × Intr) :=
  s.pins[p]?.map fun x => (x.mode, x.pull, x.intr)

/-- `LEVEL[p]` (10_state.md R17): the latch while the pin is an output, else not known to the block. -/
def State.levelOf (s : State) (p : PinId) : Option Level :=
  if s.modeOf p = .output then s.latchOf p else none

/-- Change every pin by a function of its identifier, counting from `p`. -/
def updateFrom (f : PinId → Pin → Pin) (p : PinId) : PinSpace → PinSpace
  | [] => []
  | x :: xs => f p x :: updateFrom f (p + 1) xs

/-- Change every pin by a function of its identifier: the one way the pin space is written. -/
def updatePins (f : PinId → Pin → Pin) (ps : PinSpace) : PinSpace := updateFrom f 0 ps

/-- The `MODE` a direction gives (20_memory.md R51). -/
def Dir.mode : Dir → PinMode
  | .input => .input
  | .output => .output

/-- `LATCH[q] <- v`. -/
def latchPin (q : PinId) (v : Level) (p : PinId) (x : Pin) : Pin :=
  if p = q then { x with latch := v } else x

/-- `LATCH <- 1` on `S` and `LATCH <- 0` on `C`, all at once (20_memory.md R54). The rule takes the sets to be disjoint; a pin
of both becomes 1, which is the model's choice (log 32, DESIGN CHOICE, unsafe). -/
def latchSets (S C : PinSet) (p : PinId) (x : Pin) : Pin :=
  if p ∈ S then { x with latch := true } else if p ∈ C then { x with latch := false } else x

/-- `MODE`, `PULL` and `INTR` of the pins of `P`; `LATCH` keeps its value (20_memory.md R51). -/
def configurePin (P : PinSet) (dir : Dir) (pull : Pull) (intr : Intr) (p : PinId) (x : Pin) : Pin :=
  if p ∈ P then { x with mode := Dir.mode dir, pull := pull, intr := intr } else x

/-- After a failed configuration `MODE`, `PULL` and `INTR` of the pins of `P` are unspecified: free values, numbered by
the draw `n` (20_memory.md R53, log 7). -/
def scramblePin (P : PinSet) (n : Nat) (p : PinId) (x : Pin) : Pin :=
  if p ∈ P then
    { x with mode := Config.failedMode n p, pull := Config.failedPull n p, intr := Config.failedIntr n p }
  else x

/-- `emit(e)`: append to `TRACE` (10_state.md R25). -/
def State.emit (s : State) (e : Event) : State := { s with trace := s.trace ++ [e] }

/-- Go to a sub-step: `PHASE <- p`. -/
def State.goto (p : Phase) (s : State) : State := { s with phase := p }

/-- What is left on the command port. -/
def State.withPort (s : State) (ws : List PortWord) : State := { s with port := ws }

/-- The draw that says whether the next `PinConfig` call fails (20_memory.md R53, log 6). -/
def State.configWillFail (s : State) : Bool :=
  match s.cfgFails with
  | b :: _ => b
  | [] => Config.freeConfigFails s.draws

/-- The draw of `configWillFail` is used up. -/
def State.tookConfigDraw (s : State) : State := { s with cfgFails := s.cfgFails.tail, draws := s.draws + 1 }

/-- The level the outside world drives on the input pin `p` at the next `PinRead` (20_memory.md R55): the next entry of
`samples`, then `sampleAfter`, else a free value (log 5). -/
def State.nextLevel (s : State) (p : PinId) : Level :=
  match s.samples, s.sampleAfter with
  | v :: _, _ => v
  | [], some v => v
  | [], none => Config.freeLevel s.draws p

/-- The draw of `nextLevel` is used up. -/
def State.tookLevelDraw (s : State) : State := { s with samples := s.samples.tail, draws := s.draws + 1 }

/-- The spec's code of an error (60_exceptions.md R193, 92_eei_decisions.md D14): 1 `BAD_WIDTH`, 2 `GPIO_CONFIG`,
3 `TIMEOUT`. -/
def ErrorCode.number : ErrorCode → Nat
  | .badWidth => 1
  | .gpioConfig => 2
  | .timeout => 3

/-- The code in the register `FAULT`, if there is one (10_state.md R23). -/
def State.faultNumber (s : State) : Option Nat := s.fault.map ErrorCode.number

/-- The codes told to the host, oldest first (60_exceptions.md R195, R201; the list is log 21, DESIGN CHOICE). -/
def State.reportedNumbers (s : State) : List Nat := s.reports.map ErrorCode.number

/-- `raise ConfigurationError(code)`, the one entry into the fault state (60_exceptions.md R195): `FAULT` takes the code,
`PHASE <- FAULT`, `QUEUE` is emptied, `CMD <- NONE`, and the host is told. Nothing is saved and no primitive is issued.
There is no return from it (R198). -/
def raiseConfigurationError (code : ErrorCode) (s : State) : State :=
  { s with fault := some code, phase := .fault, queue := [], cmd := .none, reports := s.reports ++ [code] }

/-- `raise TimeoutError` (41_wait_ready.md R130, 60_exceptions.md R201): not fatal; the rest of `QUEUE` is dropped, the
host is told, and the block is ready for the next command with `FAULT` and `INITED` unchanged. -/
def raiseTimeoutError (s : State) : State :=
  { s with queue := [], cmd := .none, phase := .idle, timedOut := false, reports := s.reports ++ [.timeout] }

/-- The state after a `PinConfig` call that succeeds: the pins of `P` take the settings, and the call is an event
(20_memory.md R51). -/
def State.afterConfig (P : PinSet) (dir : Dir) (pull : Pull) (intr : Intr) (s : State) : State :=
  State.emit { s.tookConfigDraw with pins := updatePins (configurePin P dir pull intr) s.pins } (.cfg P dir)

/-- The state after a `PinConfig` call that fails: it is no event, leaves the settings of `P` unspecified and raises
`ConfigurationError(GPIO_CONFIG)` (20_memory.md R53, 60_exceptions.md R192). -/
def State.afterFailedConfig (P : PinSet) (s : State) : State :=
  raiseConfigurationError .gpioConfig { s.tookConfigDraw with pins := updatePins (scramblePin P s.draws) s.pins }

/-- The state after `PinWrite(p, v)`: the event is recorded whether or not the latch changes (20_memory.md R52). -/
def State.afterWrite (p : PinId) (v : Level) (s : State) : State :=
  State.emit { s with pins := updatePins (latchPin p v) s.pins } (.w p v)

/-- The state after `PinSetClear(S, C)`: one indivisible event, also for empty sets (20_memory.md R50, R54). -/
def State.afterSetClear (S C : PinSet) (s : State) : State :=
  State.emit { s with pins := updatePins (latchSets S C) s.pins } (.sc S C)

/-- The state after `PinRead(p)`, which reads `s.nextLevel p` (20_memory.md R55). -/
def State.afterRead (p : PinId) (s : State) : State := State.emit s.tookLevelDraw (.r p (s.nextLevel p))

/-- `PinConfig(P, dir, pull, intr)`, then `k`; the environment draws whether the call fails (20_memory.md R51, R53). R51 asks
for a non-empty set of pins. On an empty set, or one with numbers that are no pins of the platform, the call goes the same two
ways, changes the pins of `P` that exist, and on success is the event `CFG(P, dir)`: the model's choice (log 32, DESIGN CHOICE,
unsafe), and no command on a well-formed handle makes such a call. -/
def pinConfig (P : PinSet) (dir : Dir) (pull : Pull) (intr : Intr) (k : State → State) (s : State) : Result :=
  .next (if s.configWillFail then s.afterFailedConfig P else k (s.afterConfig P dir pull intr))

/-- `PinWrite(p, v)`, then `k`; refused on a pin that is not an output (20_memory.md R52, R56). -/
def pinWrite (p : PinId) (v : Level) (k : State → State) (s : State) : Result :=
  if s.modeOf p = .output then .next (k (s.afterWrite p v)) else .refused .pinNotOutput

/-- `PinSetClear(S, C)`, then `k`; refused when a pin of either set is not an output (20_memory.md R54, R56). -/
def pinSetClear (S C : PinSet) (k : State → State) (s : State) : Result :=
  if (∀ p ∈ S, s.modeOf p = .output) ∧ (∀ p ∈ C, s.modeOf p = .output) then .next (k (s.afterSetClear S C))
  else .refused .pinNotOutput

/-- `PinRead(p)`, then `k` with the level read; refused on a pin that is not an input (20_memory.md R55, R56). -/
def pinRead (p : PinId) (k : Level → State → State) (s : State) : Result :=
  if s.modeOf p = .input then .next (k (s.nextLevel p) (s.afterRead p)) else .refused .pinNotInput

/-- `INITED` after a completed command: set by `INIT`, kept by every other (10_state.md R24). -/
def initedAfter (c : Cmd) (inited : Bool) : Bool :=
  match c with
  | .init => true
  | .none | .waitReady | .send => inited

/-- The command in progress has completed: `CMD <- NONE`, `PHASE <- IDLE`, and `INITED <- 1` if it was
`INIT` (40_initialize.md R100, 41_wait_ready.md R120, 42_send.md R140). -/
def completeCommand (s : State) : State :=
  { s with inited := initedAfter s.cmd s.inited, cmd := .none, phase := .idle }

/-- `CUR_BYTE <- b; QUEUE <- rest`, at the first sub-step of the handshake (42_send.md R141). -/
def loadByte (b : Byte) (rest : List Byte) (s : State) : State :=
  { s with curByte := b, queue := rest, phase := .waitBusy .wb0 }

/-- The head of the per-byte loop (42_send.md R141): take the next byte into its handshake, or complete the command when
`QUEUE` is empty. -/
def beginByte (s : State) : State :=
  match s.queue with
  | [] => completeCommand s
  | b :: rest => loadByte b rest s

/-- The end of a byte, after its strobe: `IDLE`, and the command has completed if no byte is left (10_state.md R20,
42_send.md R149). -/
def endByte (s : State) : State :=
  if s.queue = [] then completeCommand s else s.goto .idle

/-- Step 2 of a byte: `SET_MASK` and `CLR_MASK` of `CUR_BYTE`, then `ADDRESS_PHASE` (42_send.md R141, R144). -/
def beginAddressPhase (s : State) : State :=
  { s with
    setMask := setMaskOf s.handle s.curByte, clrMask := clrMaskOf s.handle s.curByte,
    phase := .addressPhase .ap0 }

end Sys2Proof.Machine
end

