-- ==== Sys2Proof/Machine/Flags.lean ====
section
/-! DEFINITION. The one flag, `BF`, with the test of the sampling loop (10_state.md R22, 41_wait_ready.md R124, R130), and
the test that admits a command (60_exceptions.md R204). -/

namespace Sys2Proof.Machine

/-- `POLLS <- 0` at `WB3`; the register exists only when `POLL_LIMIT` is `some n` (41_wait_ready.md R130). -/
def clearPolls (s : State) : State :=
  if s.params.pollLimit.isSome then { s with polls := 0 } else s

/-- `POLLS` after one more sample. -/
def pollsAfterSample (s : State) : Nat :=
  if s.params.pollLimit.isSome then s.polls + 1 else s.polls

/-- A sample of 1 that reaches the bound (41_wait_ready.md R130). -/
def sampleTimesOut (v : Level) (s : State) : Bool :=
  v && decide (s.params.pollLimit = some (pollsAfterSample s))

/-- `BF <- v`, with `POLLS` and the pending timeout of the sample. -/
def State.withSample (v : Level) (polls : Nat) (timedOut : Bool) (s : State) : State :=
  { s with bf := v, polls := polls, timedOut := timedOut }

/-- `WB4` after its sample `v`: `BF <- v`, then the loop test: 0 leaves the loop, 1 repeats the sample, unless it is the
sample that reaches `POLL_LIMIT`, which leaves the loop as a timeout. -/
def takeSample (v : Level) (s : State) : State :=
  (s.withSample v (pollsAfterSample s) (sampleTimesOut v s)).goto
    (if v = true ∧ sampleTimesOut v s = false then .waitBusy .wb4 else .waitBusy .wb5)

/-- Why a command presented now is refused, if it is: an ill-formed handle, a fault, a command in progress, or a command
other than `INIT` before a completed `INIT` (60_exceptions.md R204; which reason is named first is log 29, DESIGN CHOICE). -/
def refusalOf (needsInited : Bool) (s : State) : Option Refusal :=
  if s.handleOk = false then some .malformedHandle
  else if s.fault ≠ none then some .afterFault
  else if s.phase ≠ .idle ∨ s.cmd ≠ .none then some .busy
  else if needsInited = true ∧ s.inited = false then some .notInitialised
  else none

/-- Admit a command: refuse it, or accept it with the effect `k`. -/
def accept (needsInited : Bool) (k : State → State) (s : State) : Result :=
  match refusalOf needsInited s with
  | some why => .refused why
  | none => .next (k s)

end Sys2Proof.Machine
end

