-- ==== Sys2Proof/Machine/BusCycles.lean ====
section
/-! DEFINITION. The three bus cycles on the wire. A bus cycle is a sequence of sub-steps (10_state.md R20); `exec` of a bus
cycle carries out the sub-step the sequencer stands at, so that a step issues at most one primitive and a busy read can
sample for ever (41_wait_ready.md R125; log 26, DEDUCED). -/

namespace Sys2Proof.Machine

/-- Where the handshake goes after `WB6` (10_state.md R20): out of the command on a timeout (41_wait_ready.md R130), to the
address phase inside a byte of `SEND` or of the bring-up of `INIT`, to `IDLE` for `WAIT_READY`. -/
def afterHandshake (s : State) : State :=
  if s.timedOut then raiseTimeoutError s
  else
    match s.cmd with
    | .init | .send => beginAddressPhase s
    | .waitReady | .none => completeCommand s

/-- The handshake, one sub-step (41_wait_ready.md R121 to R124). -/
def busyReadStep (sub : BusyStep) (s : State) : Result :=
  match sub with
  | .wb0 => pinConfig (dataSet s.handle) .input .none .off (State.goto (.waitBusy .wb1)) s
  | .wb1 => pinWrite s.handle.rsPin false (State.goto (.waitBusy .wb2)) s
  | .wb2 => pinWrite s.handle.rwPin true (State.goto (.waitBusy .wb3)) s
  | .wb3 => pinWrite s.handle.enPin true (fun t => (clearPolls t).goto (.waitBusy .wb4)) s
  | .wb4 =>
    match bfPin s.handle with
    | some p => pinRead p takeSample s
    | none => .refused .malformedHandle
  | .wb5 => pinWrite s.handle.enPin false (State.goto (.waitBusy .wb6)) s
  | .wb6 => pinConfig (dataSet s.handle) .output .none .off afterHandshake s

/-- `BUSY_READ` (43_bus_cycles.md R172), generated in `WAIT_BUSY` only. -/
def execBusyRead (s : State) : Result :=
  match s.phase with
  | .waitBusy sub => busyReadStep sub s
  | .idle | .config _ | .addressPhase _ | .dataDrive | .strobe _ | .fault => .refused .cycleNotInProgress

/-- A write cycle with register-select at `rs`, one sub-step (43_bus_cycles.md R171, 42_send.md R145 to R148). -/
def writeCycleStep (rs : Level) (s : State) : Result :=
  match s.phase with
  | .addressPhase .ap0 => pinWrite s.handle.rsPin rs (State.goto (.addressPhase .ap1)) s
  | .addressPhase .ap1 => pinWrite s.handle.rwPin false (State.goto .dataDrive) s
  | .dataDrive => pinSetClear s.setMask s.clrMask (State.goto (.strobe .st0)) s
  | .strobe .st0 => pinWrite s.handle.enPin true (State.goto (.strobe .st1)) s
  | .strobe .st1 => pinWrite s.handle.enPin false endByte s
  | .idle | .config _ | .waitBusy _ | .fault => .refused .cycleNotInProgress

/-- `IR_WRITE` (43_bus_cycles.md R171): register-select low; generated for the bytes of a command with `CUR_I = 1`. -/
def execIrWrite (s : State) : Result :=
  if s.curI = true then writeCycleStep (rsLevel true) s else .refused .cycleNotInProgress

/-- `DR_WRITE` (43_bus_cycles.md R171): register-select high; generated for the bytes of a command with `CUR_I = 0`. -/
def execDrWrite (s : State) : Result :=
  if s.curI = false then writeCycleStep (rsLevel false) s else .refused .cycleNotInProgress

end Sys2Proof.Machine
end

