-- ==== Sys2Proof/Machine/Commands.lean ====
section
/-! DEFINITION. The five host commands. `exec` of a command is its acceptance at the command port; the sequencer then
carries it out one primitive a step (10_state.md R20): the configuration sub-steps of `INIT` stand here, the bus cycles in
BusCycles.lean. That acceptance is a step of its own is log 15 (DEDUCED). -/

namespace Sys2Proof.Machine

/-- `CMD <- INIT; PHASE <- CONFIG` (40_initialize.md R100). -/
def startInit (s : State) : State := { s with cmd := .init, phase := .config .cf0 }

/-- `INIT` (40_initialize.md R100). It needs no earlier `INIT` (R109). -/
def execInit (s : State) : Result := accept false startInit s

/-- `CMD <- WAIT_READY` and the head of the handshake (41_wait_ready.md R120). -/
def startWaitReady (s : State) : State := { s with cmd := .waitReady, phase := .waitBusy .wb0 }

/-- `WAIT_READY` (41_wait_ready.md R120). -/
def execWaitReady (s : State) : Result := accept true startWaitReady s

/-- `CMD <- SEND; QUEUE <- bytes; CUR_I <- I` (42_send.md R140, R141). -/
def loadSend (isInstruction : Bool) (bytes : List Byte) (s : State) : State :=
  { s with cmd := .send, queue := bytes, curI := isInstruction }

/-- The operands, then the head of the per-byte loop (42_send.md R141). With no bytes the command has completed at once
and issues nothing (R142; log 14, DEDUCED, for `CUR_I`). -/
def startSend (isInstruction : Bool) (bytes : List Byte) (s : State) : State :=
  beginByte (loadSend isInstruction bytes s)

/-- `SEND I, bytes` (42_send.md R140); the bytes are captured here (20_memory.md R43). -/
def execSend (isInstruction : Bool) (bytes : List Byte) (s : State) : Result :=
  accept true (startSend isInstruction bytes) s

/-- `SEND_SINGLE I, b` (42_send.md R155). -/
def execSendSingle (isInstruction : Bool) (byte : Byte) (s : State) : Result :=
  accept true (startSend isInstruction [byte]) s

/-- `CLEAR` (42_send.md R156). -/
def execClear (s : State) : Result :=
  accept true (fun t => startSend true [t.params.clearInstruction] t) s

/-- Both configuration calls are made: the bring-up bytes stand in `QUEUE`, as instruction bytes (40_initialize.md R105,
10_state.md R20). All four are queued at once, as R20 says, where R100's pseudocode transmits the clear byte by itself
first: what `QUEUE` holds meanwhile is the model's choice (log 30, DEDUCED). -/
def queueBringUp (s : State) : State :=
  { s with queue := bringUpBytes s.params s.handle.busWidth, curI := true, phase := .idle }

/-- The configuration sub-steps of `INIT` (40_initialize.md R100 to R104): the width test, the data pins, the control
pins. -/
def configStep (c : ConfigStep) (s : State) : Result :=
  match c with
  | .cf0 =>
    .next (if legalWidth s.handle then s.goto (.config .cf1) else raiseConfigurationError .badWidth s)
  | .cf1 => pinConfig (dataSet s.handle) .output .none .off (State.goto (.config .cf2)) s
  | .cf2 => pinConfig (ctrlSet s.handle) .output .none .off queueBringUp s

end Sys2Proof.Machine
end

