-- ==== Sys2Proof/Machine/Dispatch.lean ====
section
/-! DEFINITION. The meaning of every instruction, one arm each. -/

namespace Sys2Proof.Machine

def exec (i : Instr) (s : State) : Host.Outcome State Fault Refusal :=
  match i with
  | .init => Sys2Proof.Machine.execInit s
  | .waitReady => Sys2Proof.Machine.execWaitReady s
  | .send f bytes => Sys2Proof.Machine.execSend f bytes s
  | .sendSingle f b => Sys2Proof.Machine.execSendSingle f b s
  | .clear => Sys2Proof.Machine.execClear s
  | .irWrite => Sys2Proof.Machine.execIrWrite s
  | .drWrite => Sys2Proof.Machine.execDrWrite s
  | .busyRead => Sys2Proof.Machine.execBusyRead s

end Sys2Proof.Machine
end

