-- ==== Sys2Proof/Machine/Fetch.lean ====
section
/-! DEFINITION. Which instruction a step runs: the command that stands complete on the port while the block waits for
one, or the bus cycle the sequencer is in; and the steps that run none. -/

namespace Sys2Proof.Machine

/-- What a step has to do: run an instruction at a state, or answer at once. -/
inductive Fetched where
  | instr (i : Instr) (s : State)
  | answer (r : Result)

/-- The block waits for a command (10_state.md R29): a complete one is taken off the port and run, an incomplete one is
waited for with nothing changed (30_encoding.md R73), a reserved one is refused (R74). -/
def fetchCommand (s : State) : Fetched :=
  match decodePort s.port with
  | .instr i rest => .instr i (s.withPort rest)
  | .incomplete => .answer (.next s)
  | .rejected why => .answer (.refused (.reservedEncoding why))

/-- In the fault state the block has no step, and a command presented there is refused by its meaning (60_exceptions.md
R195, R204). -/
def fetchInFault (s : State) : Fetched :=
  match decodePort s.port with
  | .instr i rest => .instr i (s.withPort rest)
  | .incomplete | .rejected _ => .answer (.fault (.stopped s.fault))

/-- The write cycle of the current byte (30_encoding.md R76). -/
def writeCycleInstr (s : State) : Instr := if s.curI then .irWrite else .drWrite

/-- What the next step has to do (10_state.md R19, R20). -/
def fetch (s : State) : Fetched :=
  match s.phase with
  | .idle => if s.cmd = .none then fetchCommand s else .answer (.next (beginByte s))
  | .config c => .answer (configStep c s)
  | .waitBusy _ => .instr .busyRead s
  | .addressPhase _ | .dataDrive | .strobe _ => .instr (writeCycleInstr s) s
  | .fault => fetchInFault s

end Sys2Proof.Machine
end

