-- ==== Sys2Proof/Machine/Step.lean ====
section
/-! DEFINITION. One step of the machine, and how an instruction is placed where the next step takes it. -/

namespace Sys2Proof.Machine

/-- One step: run the instruction of `fetch`, or give its answer. A step issues at most one GPIO primitive
(10_state.md R20). -/
def step (s : State) : Host.Outcome State Fault Refusal :=
  match fetch s with
  | .instr i t => exec i t
  | .answer r => r

/-- Place a command on the port of a block that waits for one. -/
def State.withCommand (s : State) (ws : List PortWord) : State :=
  { s with phase := .idle, cmd := .none, port := ws }

/-- Stand at the first sub-step of the bus cycle with the given code, in a command that generates it; the reserved code is
generated nowhere (43_bus_cycles.md R174). -/
def State.withBusCycle (s : State) (code : BitVec 2) : State :=
  match decodeBusCycle code with
  | .instr .irWrite _ => { s with phase := .addressPhase .ap0, cmd := .send, curI := true }
  | .instr .drWrite _ => { s with phase := .addressPhase .ap0, cmd := .send, curI := false }
  | .instr .busyRead _ => { s with phase := .waitBusy .wb0, cmd := .waitReady }
  | .instr _ _ | .incomplete | .rejected _ => s

/-- `s` with the instruction of an opcode-table row where the next step takes it (log 12). -/
def State.withFetchWord (s : State) (nbits w : Nat) : State :=
  match wordsOfTableBits nbits w with
  | some (.port ws) => s.withCommand ws
  | some (.bus code) => s.withBusCycle code
  | none => s

end Sys2Proof.Machine
end

