-- ==== Sys2Proof/Machine/Wire.lean ====
section
/-! DEFINITION. What the display controller sees: the bus cycles as patterns of trace events, and the derived observation
`WRITES` (43_bus_cycles.md). Nothing here is read by a step. -/

namespace Sys2Proof.Machine

/-- The events of a `BUSY_READ` with `busy` samples of 1 before the first 0, on the busy pin `bf` (43_bus_cycles.md
R172). -/
def busyReadEvents (h : Handle) (bf : PinId) (busy : Nat) : List Event :=
  [.cfg (dataSet h) .input, .w h.rsPin false, .w h.rwPin true, .w h.enPin true] ++
    List.replicate busy (.r bf true) ++ [.r bf false, .w h.enPin false, .cfg (dataSet h) .output]

/-- The events of a write cycle of the byte `b` with flag `I` (43_bus_cycles.md R171). -/
def writeCycleEvents (h : Handle) (isInstruction : Bool) (b : Byte) : List Event :=
  [.w h.rsPin (rsLevel isInstruction), .w h.rwPin false, .sc (setMaskOf h b) (clrMaskOf h b),
    .w h.enPin true, .w h.enPin false]

/-- The events of one transmitted byte: one `BUSY_READ`, then one write cycle (43_bus_cycles.md R176, 42_send.md
R141). -/
def byteEvents (h : Handle) (bf : PinId) (isInstruction : Bool) (b : Byte) (busy : Nat) : List Event :=
  busyReadEvents h bf busy ++ writeCycleEvents h isInstruction b

/-- The events of a sequence of bytes, each with the number of busy samples of its handshake. -/
def bytesEvents (h : Handle) (bf : PinId) (isInstruction : Bool) : List (Byte × Nat) → List Event
  | [] => []
  | (b, busy) :: rest => byteEvents h bf isInstruction b busy ++ bytesEvents h bf isInstruction rest

/-- The output latches after an event, from the latches before it (20_memory.md R52, R54). -/
def latchesAfter (lat : PinId → Level) (e : Event) : PinId → Level :=
  match e with
  | .w q v => fun p => if p = q then v else lat p
  | .sc S C => fun p => if p ∈ S then true else if p ∈ C then false else lat p
  | .cfg _ _ | .r _ _ => lat

/-- The byte whose bit `j` is the latch of `DATA_PIN[j]` for `j < BUS_WIDTH`, its other bits 0. -/
def lineByte (h : Handle) (lat : PinId → Level) : Byte :=
  (BitVec.ofBoolListLE ((dataList h).map lat)).setWidth 8

/-- The entry an event adds to `WRITES`: the fall of enable with enable high and read/write low just before
(43_bus_cycles.md R173, R175). -/
def writesAt (h : Handle) (lat : PinId → Level) (e : Event) : List (Level × Byte) :=
  match e with
  | .w p v =>
    if p = h.enPin ∧ v = false ∧ lat h.enPin = true ∧ lat h.rwPin = false then [(lat h.rsPin, lineByte h lat)] else []
  | .cfg _ _ | .r _ _ | .sc _ _ => []

/-- `WRITES(T)` (43_bus_cycles.md R175), for a trace that starts with the output latches `lat`. -/
def writesOf (h : Handle) : (PinId → Level) → List Event → List (Level × Byte)
  | _, [] => []
  | lat, e :: es => writesAt h lat e ++ writesOf h (latchesAfter lat e) es

/-- `b[BUS_WIDTH-1:0]` as a byte: the bits that reach the pins (20_memory.md R47). -/
def lowBits (h : Handle) (b : Byte) : Byte := (b.setWidth h.busWidth).setWidth 8

/-- Enable as the trace leaves it, from the latches before. -/
def latchesAfterAll (lat : PinId → Level) (es : List Event) : PinId → Level := es.foldl latchesAfter lat

end Sys2Proof.Machine
end

