-- ==== Sys2Proof/Safety.lean ====
section
/-! DEFINITION. What counts as a safe run: how a run stands (70_reset_and_hazards.md R234), the invariants of the block
(10_state.md R18, R23, 20_memory.md R63, the source's three named invariants), and the premises a statement may take. -/

namespace Sys2Proof.Machine

/-- The block waits for a command and the last one has completed (70_reset_and_hazards.md R234, "ended well"). -/
def EndedWell (s : State) : Prop := s.phase = .idle ∧ s.cmd = .none ∧ s.queue = [] ∧ s.fault = none

/-- The run has faulted (R234). -/
def Faulted (s : State) : Prop := s.phase = .fault

/-- A command presented now is accepted (60_exceptions.md R204); every command but `INIT` also needs `INITED = 1`. -/
def Accepting (s : State) : Prop := s.handleOk = true ∧ s.fault = none ∧ s.phase = .idle ∧ s.cmd = .none

/-- The handshake's sub-steps between the two direction changes, `WB1` to `WB6`. -/
def DataPinsAreInputs : Phase → Prop
  | .waitBusy .wb0 => False
  | .waitBusy _ => True
  | .idle | .config _ | .addressPhase _ | .dataDrive | .strobe _ | .fault => False

/-- The sub-steps of a write cycle. -/
def InWriteCycle : Phase → Prop
  | .addressPhase _ | .dataDrive | .strobe _ => True
  | .idle | .config _ | .waitBusy _ | .fault => False

/-- The phases of `CONFIG`. -/
def InConfig : Phase → Prop
  | .config _ => True
  | .idle | .waitBusy _ | .addressPhase _ | .dataDrive | .strobe _ | .fault => False

/-- Which phases a command in progress may stand in (10_state.md R19, R20). -/
def phaseFits : Cmd → Phase → Prop
  | .none, p => p = .idle ∨ p = .fault
  | .waitReady, p => ∃ b, p = .waitBusy b
  | .send, p => p = .idle ∨ (∃ b, p = .waitBusy b) ∨ InWriteCycle p
  | .init, p => p = .idle ∨ InConfig p ∨ (∃ b, p = .waitBusy b) ∨ InWriteCycle p

/-- The sequencer registers agree with one another. -/
structure SequencerOk (s : State) : Prop where
  /-- `FAULT` is not `NONE` exactly in `PHASE = FAULT` (10_state.md R23). -/
  faultPhase : s.phase = .fault ↔ s.fault ≠ none
  /-- A timeout is no `ConfigurationError` (60_exceptions.md R201). -/
  faultCode : s.fault ≠ some .timeout
  /-- A command runs only in the phases of its own path (10_state.md R20). -/
  cmdPhase : phaseFits s.cmd s.phase
  /-- No byte is queued outside a command; between two bytes one is (42_send.md R149; inside an `INIT` too,
  because its four bytes are queued at once: log 30, DEDUCED). -/
  queueIdle : s.phase = .idle → (s.queue = [] ↔ s.cmd = .none)
  /-- No byte is queued in the fault state (60_exceptions.md R195). -/
  queueFault : s.phase = .fault → s.queue = []
  /-- A `WAIT_READY` has no bytes. -/
  queueWait : s.cmd = .waitReady → s.queue = []
  /-- A command runs on a well-formed handle only (10_state.md R14), and so did a completed `INIT`. -/
  handleOk : s.cmd ≠ .none ∨ s.inited = true → s.handleOk = true
  /-- After the width test the width is legal (40_initialize.md R101). -/
  width : (s.cmd ≠ .none ∧ s.phase ≠ .config .cf0) ∨ s.inited = true → legalWidth s.handle
  /-- `WAIT_READY` and `SEND` run after a completed `INIT` only (10_state.md R24). -/
  needsInited : s.cmd = .waitReady ∨ s.cmd = .send → s.inited = true
  /-- The bring-up bytes are instruction bytes (40_initialize.md R105). -/
  bringUpFlag : s.cmd = .init → ¬ InConfig s.phase → s.curI = true
  /-- In a write cycle the masks are those of `CUR_BYTE` (30_encoding.md R78). -/
  masks : InWriteCycle s.phase →
    s.setMask = setMaskOf s.handle s.curByte ∧ s.clrMask = clrMaskOf s.handle s.curByte
  /-- "Busy must be cleared before any write": past the sampling loop, unless it timed out, the last sample was 0
  (41_wait_ready.md R126). -/
  busyCleared : InWriteCycle s.phase ∨
    ((s.phase = .waitBusy .wb5 ∨ s.phase = .waitBusy .wb6) ∧ s.timedOut = false) → s.bf = false
  /-- A timeout is pending only on the way out of the handshake (41_wait_ready.md R130). -/
  timedOut : s.timedOut = true → s.phase = .waitBusy .wb5 ∨ s.phase = .waitBusy .wb6 ∨ s.phase = .fault
  /-- With a legal bound the sampling loop has not yet reached it (41_wait_ready.md R130). -/
  pollsBound : ∀ n, s.params.pollLimit = some n → 1 ≤ n → s.phase = .waitBusy .wb4 → s.polls < n

/-- The settings the block gives a pin: a direction, no pull, no interrupt (20_memory.md R51). -/
def HasSettings (s : State) (dir : Dir) (p : PinId) : Prop := s.settingsOf p = some (Dir.mode dir, .none, .off)

/-- Both configuration calls of an `INIT` have been made: an earlier one completed, or the current one is past
`CONFIG`. -/
def Configured (s : State) : Prop := s.inited = true ∨ (s.cmd = .init ∧ ¬ InConfig s.phase)

/-- "Pin direction must match the current phase" (10_state.md R18). The fault state is left out: there a failed
configuration has left its pins unspecified (20_memory.md R53; log 20, DEDUCED). -/
structure DirectionOk (s : State) : Prop where
  /-- The control pins are outputs in every phase. -/
  ctrl : Configured s → s.phase ≠ .fault → ∀ p ∈ ctrlList s.handle, HasSettings s .output p
  /-- The data pins are outputs outside the handshake. -/
  dataOut : Configured s → s.phase ≠ .fault → ¬ DataPinsAreInputs s.phase →
    ∀ p ∈ dataList s.handle, HasSettings s .output p
  /-- The data pins are inputs inside it. -/
  dataIn : DataPinsAreInputs s.phase → ∀ p ∈ dataList s.handle, HasSettings s .input p
  /-- The data pins are configured before the control pins (40_initialize.md R103). -/
  dataFirst : s.phase = .config .cf2 → ∀ p ∈ dataList s.handle, HasSettings s .output p
  /-- No other pin is ever configured (20_memory.md R40). -/
  others : ∀ p, p ∉ ctrlList s.handle → p ∉ dataList s.handle → s.modeOf p = .unconf

/-- The bus lines hold what the sub-step needs (20_memory.md R63, 41_wait_ready.md R125, 42_send.md R145 to R148). -/
structure LinesOk (s : State) : Prop where
  /-- In the handshake, after `WB1`: register-select low. -/
  busyRs : s.phase ∈ [.waitBusy .wb2, .waitBusy .wb3, .waitBusy .wb4, .waitBusy .wb5, .waitBusy .wb6,
      .addressPhase .ap0] → s.latchOf s.handle.rsPin = some false
  /-- In the handshake, after `WB2`: read/write high, until `AP1` lowers it. -/
  busyRw : s.phase ∈ [.waitBusy .wb3, .waitBusy .wb4, .waitBusy .wb5, .waitBusy .wb6, .addressPhase .ap0,
      .addressPhase .ap1] → s.latchOf s.handle.rwPin = some true
  /-- Enable is high across all samples, and between the rise and the fall of the strobe. -/
  enHigh : s.phase ∈ [.waitBusy .wb4, .waitBusy .wb5, .strobe .st1] → s.latchOf s.handle.enPin = some true
  /-- Enable is low from the end of the handshake to the strobe. -/
  enLow : s.phase ∈ [.waitBusy .wb6, .addressPhase .ap0, .addressPhase .ap1, .dataDrive, .strobe .st0] →
    s.latchOf s.handle.enPin = some false
  /-- After a completed `INIT` enable is high only where `enHigh` says. -/
  enRest : s.inited = true → s.phase ∉ [.waitBusy .wb4, .waitBusy .wb5, .strobe .st1, .fault] →
    s.latchOf s.handle.enPin = some false
  /-- After `AP0`: register-select follows `CUR_I`. -/
  writeRs : s.phase ∈ [.addressPhase .ap1, .dataDrive, .strobe .st0, .strobe .st1] →
    s.latchOf s.handle.rsPin = some (rsLevel s.curI)
  /-- After `AP1`: read/write low. -/
  writeRw : s.phase ∈ [.dataDrive, .strobe .st0, .strobe .st1] → s.latchOf s.handle.rwPin = some false
  /-- After `DD0`: every data line holds its bit of `CUR_BYTE`. -/
  data : s.phase ∈ [.strobe .st0, .strobe .st1] → ∀ j p, (dataList s.handle)[j]? = some p →
    s.latchOf p = some (s.curByte.getLsbD j)

/-- The invariant of the block. -/
structure Inv (s : State) : Prop where
  sequencer : SequencerOk s
  direction : DirectionOk s
  lines : LinesOk s

/-- What one `PinWrite(p, v)` does to the pin space: the latch of `p`, and nothing else of any pin (20_memory.md R52). -/
def DrivesPin (s t : State) (p : PinId) (v : Level) : Prop :=
  t.latchOf p = some v ∧ t.settingsOf p = s.settingsOf p ∧ ∀ q, q ≠ p → t.pins[q]? = s.pins[q]?

/-- What one `PinSetClear(S, C)` does to the pin space (20_memory.md R54). -/
def DrivesPins (s t : State) (S C : PinSet) : Prop :=
  (∀ p ∈ S, t.latchOf p = some true ∧ t.settingsOf p = s.settingsOf p) ∧
  (∀ p ∈ C, t.latchOf p = some false ∧ t.settingsOf p = s.settingsOf p) ∧
  ∀ q, q ∉ S → q ∉ C → t.pins[q]? = s.pins[q]?

/-- What one successful `PinConfig(P, dir, NONE, OFF)` does to the pin space: the settings of the pins of `P`, no latch, no
other pin (20_memory.md R51). -/
def ConfiguresPins (s t : State) (P : PinSet) (dir : Dir) : Prop :=
  (∀ p ∈ P, p < s.pinCount → HasSettings t dir p) ∧ (∀ p, t.latchOf p = s.latchOf p) ∧
  ∀ q, q ∉ P → t.pins[q]? = s.pins[q]?

/-- What `ConfigurationError(GPIO_CONFIG)` from a failed `PinConfig` on `P` leaves (20_memory.md R53, 60_exceptions.md
R195): the fault registers, no event, every pin outside `P`, and every other register of the block. R195 calls the pins of the call
unspecified; that their latches too are kept is the model's reading (log 7, DEDUCED, unsafe), and the list `reports` is the
model's (log 21, DESIGN CHOICE). -/
def FaultsInConfig (s t : State) (P : PinSet) : Prop :=
  t = { s with
    pins := t.pins, fault := some .gpioConfig, phase := .fault, queue := [], cmd := .none,
    reports := s.reports ++ [.gpioConfig], cfgFails := s.cfgFails.tail, draws := s.draws + 1 } ∧
  (∀ p, t.latchOf p = s.latchOf p) ∧ ∀ q, q ∉ P → t.pins[q]? = s.pins[q]?

/-- `k` steps of the machine, stopping at the first fault or refusal. -/
def run (k : Nat) (s : State) : Result := Host.Core.run Sys2Proof.core k s

/-! How a run stands (70_reset_and_hazards.md R234). The run from a state is that of the commands on its port; it is over
when the block waits for a command and no complete one is left. The waiting steps the machine then takes are no part of the
run, so a run that is over is not infinite (log 31, DEDUCED). -/

/-- The block waits for a command and no complete one stands on the port: a step from here changes nothing (log 15). -/
def AwaitsCommand (s : State) : Prop := s.phase = .idle ∧ s.cmd = .none ∧ decodePort s.port = .incomplete

/-- The run ends well: the last command completes (R234). -/
def RunEndsWell (s : State) : Prop := ∃ k t, run k s = .next t ∧ AwaitsCommand t ∧ EndedWell t

/-- The run faults: it comes to `PHASE = FAULT` (R234). -/
def RunFaults (s : State) : Prop := ∃ k t, run k s = .next t ∧ Faulted t

/-- The run hangs: it is infinite (R234, R227). Every number of steps can be taken, and it never comes to an end. -/
def RunHangs (s : State) : Prop := ∀ k, ∃ t, run k s = .next t ∧ ¬ AwaitsCommand t

/-- The grounds on which 60_exceptions.md R204 refuses a command. -/
def admissionRefusals : List Refusal := [.malformedHandle, .afterFault, .busy, .notInitialised]

/-- The run is refused: a command is presented that 60_exceptions.md R204 refuses (R234). -/
def RunIsRefused (s : State) : Prop := ∃ k why, run k s = .refused why ∧ why ∈ admissionRefusals

/-- The block samples 1 for ever (41_wait_ready.md R125, 60_exceptions.md R200): it keeps stepping at `WB4`, one
`R(BF_PIN)=1` a step, with its pins, command and fault register as they are. -/
def SamplesForEver (s : State) : Prop :=
  ∃ p, bfPin s.handle = some p ∧ ∀ j, ∃ t, run j s = .next t ∧ t.phase = .waitBusy .wb4 ∧
    t.trace = s.trace ++ List.replicate j (.r p true) ∧ t.pins = s.pins ∧ t.cmd = s.cmd ∧ t.queue = s.queue ∧
    t.fault = s.fault

/-- The level the environment answers to the `j`-th coming `PinRead`, if each of them reads `p` and no `PinConfig` call
comes between (20_memory.md R55; the list, the level after it and the free values are log 5). -/
def State.sampleAt (s : State) (j : Nat) (p : PinId) : Level :=
  match s.samples[j]?, s.sampleAfter with
  | some v, _ => v
  | none, some v => v
  | none, none => Config.freeLevel (s.draws + j) p

/-- The environment's answers for the handshakes with the given numbers of busy samples, in order: in each, that many
samples of 1, then a 0 (the premise RESPONSIVE of 70_reset_and_hazards.md R222 for these handshakes). -/
def responsiveSamples : List Nat → List Level
  | [] => []
  | busy :: rest => List.replicate busy true ++ false :: responsiveSamples rest

/-- The environment's coming answers begin with a `BUSY_READ` sequence for each of the handshakes `busys`, and none of
their two configuration calls each fails. -/
def Responsive (s : State) (busys : List Nat) : Prop :=
  (∃ more, s.samples = responsiveSamples busys ++ more) ∧
  (∃ more, s.cfgFails = List.replicate (2 * busys.length) false ++ more)

/-- No handshake with one of these numbers of busy samples reaches `POLL_LIMIT` (41_wait_ready.md R130); always so with
the default `none`. -/
def BelowPollLimit (s : State) (busys : List Nat) : Prop :=
  ∀ n, s.params.pollLimit = some n → ∀ busy ∈ busys, busy < n

/-- How many steps the sequencer takes for one handshake with the given number of busy samples: one per event. -/
def handshakeSteps (busy : Nat) : Nat := 7 + busy

/-- How many steps for one byte, from its handshake on: one per event (42_send.md R141). -/
def byteSteps (busy : Nat) : Nat := handshakeSteps busy + 5

/-- How many steps for a sequence of bytes, from the first one's handshake on: between two bytes the machine passes
through `IDLE` (42_send.md R149). -/
def bytesSteps : List Nat → Nat
  | [] => 0
  | [busy] => byteSteps busy
  | busy :: rest => byteSteps busy + 1 + bytesSteps rest

/-- The data lines hold the byte `b`: `LATCH[DATA_PIN[j]] = b[j]` for `j < BUS_WIDTH` (42_send.md R147). -/
def DataLinesHold (s : State) (b : Byte) : Prop :=
  ∀ j p, (dataList s.handle)[j]? = some p → s.latchOf p = some (b.getLsbD j)

/-- Two states that differ at most in bits of the pending bytes that reach no pin: bits `BUS_WIDTH` and above of
`CUR_BYTE` and of the bytes in `QUEUE` (20_memory.md R47). -/
def SameLowBits (s t : State) : Prop :=
  t = { s with curByte := t.curByte, queue := t.queue } ∧
  lowBits s.handle t.curByte = lowBits s.handle s.curByte ∧
  t.queue.map (lowBits s.handle) = s.queue.map (lowBits s.handle)

/-- The output latches are those the trace says, from the latches `lat` at reset (20_memory.md R58). -/
def LatchesFollowTrace (lat : PinId → Level) (s : State) : Prop :=
  ∀ p, p < s.pinCount → s.latchOf p = some (latchesAfterAll lat s.trace p)

end Sys2Proof.Machine
end

