-- ==== Sys2Proof/Certificates/Slice0/Obligations.lean ====
section
/-! DEFINITION. The statements for the provers, from the spec's numbered rules. -/

open Sys2Proof Sys2Proof.Machine

/-! ### Reset -/

/-- 10_state.md R29, 70_reset_and_hazards.md R220, for every handle, parameters and `PIN_COUNT`: the values the spec
gives. (The registers it leaves unspecified are the model's choice, log 4 and log 10, and are not stated.) -/
def Obligations.ResetLeavesTheSpecValues : Prop :=
  ∀ (h : Handle) (ps : Params) (n : Nat), ∃ s, s = State.construct h ps n ∧
    s.handle = h ∧ s.params = ps ∧ s.pinCount = n ∧ (∀ p, s.modeOf p = .unconf) ∧ s.phase = .idle ∧
    s.cmd = .none ∧ s.queue = [] ∧ s.fault = none ∧ s.inited = false ∧ s.polls = 0 ∧ s.trace = []

/-- The invariant holds after reset, for every handle, parameters and `PIN_COUNT`. -/
def Obligations.ResetMeetsTheInvariant : Prop :=
  ∀ (h : Handle) (ps : Params) (n : Nat), Inv (State.construct h ps n)

/-! ### Encoding -/

/-- Decoding the words of a well-formed instruction gives it back, and on the command port leaves what stands after it. -/
def Obligations.DecodingAnEncodingGivesTheInstruction : Prop :=
  ∀ i : Instr, i.wellFormed = true → decode (encode i) = .instr i [] ∧
    ∀ ws rest, encode i = .port ws → decodePort (ws ++ rest) = .instr i rest

/-- The other direction: whatever the decoder reads from the port is a well-formed command, and what it took off the
port is that command's encoding, so no two port contents mean the same command. -/
def Obligations.DecodedCommandIsItsOwnEncoding : Prop :=
  ∀ ws i rest, decodePort ws = .instr i rest →
    i.wellFormed = true ∧ ∃ front, encode i = .port front ∧ ws = front ++ rest

/-- 30_encoding.md R74: exactly the listed headers are reserved, and a block that waits for a command refuses one. -/
def Obligations.ReservedHeadersAreRefused : Prop :=
  ∀ w : BitVec 32,
    ((∃ why, decodeHeader w = .rejected why) ↔
      (headerOp w = 0 ∨ 6 ≤ (headerOp w).toNat ∨ headerZero w ≠ 0 ∨
        ((headerOp w = 1 ∨ headerOp w = 2 ∨ headerOp w = 5) ∧ (headerFlag w = true ∨ headerArg w ≠ 0)) ∨
        (headerOp w = 4 ∧ headerArgHigh w ≠ 0))) ∧
    ∀ (s : State) (more : List PortWord) (why : Reject), s.phase = .idle → s.cmd = .none →
      s.port = .header w :: more → decodeHeader w = .rejected why → step s = .refused (.reservedEncoding why)

/-- 30_encoding.md R72, R73, R76: some words written out from the spec's tables (95_test_vectors.md V10). -/
def Obligations.SpecWordsDecode : Prop :=
  decodePort [.header 0x10000000#32] = .instr .init [] ∧
  decodePort [.header 0x20000000#32] = .instr .waitReady [] ∧
  decodePort [.header 0x30000002#32, .beat 0x48#8, .beat 0x69#8] = .instr (.send false [0x48#8, 0x69#8]) [] ∧
  decodePort [.header 0x40010038#32] = .instr (.sendSingle true 0x38#8) [] ∧
  decodePort [.header 0x50000000#32] = .instr .clear [] ∧
  decode (.bus 0b00#2) = .instr .irWrite [] ∧ decode (.bus 0b10#2) = .instr .drWrite [] ∧
  decode (.bus 0b01#2) = .instr .busyRead [] ∧ decode (.bus 0b11#2) = .rejected .reservedBusCycle

/-! ### The step -/

/-- A step runs the decoded instruction: a complete command on the port of a waiting block, taken off the port; an
incomplete one is waited for; the bus cycle of the sub-step elsewhere. (The port as a register and the waiting step are
the model's, log 9 and log 15.) -/
def Obligations.StepRunsTheDecodedInstruction : Prop :=
  ∀ s : State,
    (s.phase = .idle → s.cmd = .none →
      (∀ i rest, decodePort s.port = .instr i rest → step s = exec i { s with port := rest }) ∧
      (decodePort s.port = .incomplete → step s = .next s)) ∧
    ((∃ b, s.phase = .waitBusy b) → step s = exec .busyRead s) ∧
    (InWriteCycle s.phase → step s = exec (if s.curI then .irWrite else .drWrite) s)

/-- 10_state.md R20, R25: a step changes `TRACE` by at most one event at its end. -/
def Obligations.StepIssuesAtMostOneEvent : Prop :=
  ∀ s t : State, step s = .next t → t.trace = s.trace ∨ ∃ e, t.trace = s.trace ++ [e]

/-- 10_state.md R13: no step changes the handle, a parameter or `PIN_COUNT`. -/
def Obligations.StepKeepsHandleAndParameters : Prop :=
  ∀ s t : State, step s = .next t → t.handle = s.handle ∧ t.params = s.params ∧ t.pinCount = s.pinCount

/-- 20_memory.md R40: no step changes anything of a pin the handle does not name. -/
def Obligations.StepLeavesOtherPinsAlone : Prop :=
  ∀ s t : State, SequencerOk s → step s = .next t →
    ∀ p, p ∉ ctrlList s.handle → p ∉ dataList s.handle → t.pins[p]? = s.pins[p]?

/-- 10_state.md R22: a step changes `BF` only at `WB4`, where it becomes the level the environment drives on `BF_PIN`. -/
def Obligations.BusyFlagIsTheLastSample : Prop :=
  ∀ s t : State, step s = .next t →
    (s.phase ≠ .waitBusy .wb4 → t.bf = s.bf) ∧
    (s.phase = .waitBusy .wb4 → ∃ p, bfPin s.handle = some p ∧ t.bf = s.nextLevel p ∧
      t.trace = s.trace ++ [.r p (s.nextLevel p)])

/-- 10_state.md R24: `INITED` is set by the last step of an `INIT`, which is `ST1` of its last byte, and by no other
step; it is never cleared, and without it every command but `INIT` is refused. (That an empty `QUEUE` marks the last byte
of an `INIT` is R20 and R21 with all four bytes queued at once: log 30, DEDUCED.) -/
def Obligations.InitedIsSetByInitOnly : Prop :=
  (∀ s t : State, SequencerOk s → step s = .next t → (s.inited = true → t.inited = true) ∧
    (s.cmd = .init → s.phase = .strobe .st1 → s.queue = [] → t.inited = true) ∧
    (s.inited = false → t.inited = true →
      s.cmd = .init ∧ s.phase = .strobe .st1 ∧ s.queue = [] ∧ t.cmd = .none ∧ t.phase = .idle)) ∧
  ∀ s : State, s.inited = false → ∀ f bytes b, ∀ i ∈ [Instr.waitReady, .send f bytes, .sendSingle f b, .clear],
    ∃ why, exec i s = .refused why

/-- 41_wait_ready.md R126: the address phase follows only a finished handshake, and the sampling loop is left on a
sample of 0, or (R130) on the sample of 1 that reaches `POLL_LIMIT`, after which no address phase follows. -/
def Obligations.AddressPhaseFollowsAZeroSample : Prop :=
  ∀ s t : State, step s = .next t →
    (t.phase = .addressPhase .ap0 → s.phase = .waitBusy .wb6 ∧ s.timedOut = false) ∧
    (t.phase = .waitBusy .wb6 → s.phase = .waitBusy .wb5 ∧ t.timedOut = s.timedOut ∧ t.bf = s.bf) ∧
    (t.phase = .waitBusy .wb5 → s.phase = .waitBusy .wb4 ∧
      (t.bf = false ∧ t.timedOut = false ∨
        t.bf = true ∧ t.timedOut = true ∧ s.params.pollLimit = some (s.polls + 1)))

/-! ### Admission of commands -/

/-- 40_initialize.md R100: `INIT` is accepted by an idle block, whether or not an earlier `INIT` completed (R109), and
changes `CMD` and `PHASE` only. -/
def Obligations.InitIsAccepted : Prop :=
  ∀ s : State, Accepting s → exec .init s = .next { s with cmd := .init, phase := .config .cf0 }

/-- 41_wait_ready.md R120: `WAIT_READY` starts its handshake and changes `CMD` and `PHASE` only. -/
def Obligations.WaitReadyStartsAHandshake : Prop :=
  ∀ s : State, Accepting s → s.inited = true →
    exec .waitReady s = .next { s with cmd := .waitReady, phase := .waitBusy .wb0 }

/-- 42_send.md R140, R141: `SEND` of at least one byte captures the bytes and starts the handshake of the first;
`SEND_SINGLE` and `CLEAR` are such sends of one byte. -/
def Obligations.SendStartsItsFirstByte : Prop :=
  ∀ s : State, Accepting s → s.inited = true →
    (∀ f b bs, exec (.send f (b :: bs)) s = .next
      { s with cmd := .send, curI := f, curByte := b, queue := bs, phase := .waitBusy .wb0 }) ∧
    (∀ f b, exec (.sendSingle f b) s = .next
      { s with cmd := .send, curI := f, curByte := b, queue := [], phase := .waitBusy .wb0 }) ∧
    exec .clear s = .next
      { s with
        cmd := .send, curI := true, curByte := s.params.clearInstruction, queue := [], phase := .waitBusy .wb0 }

/-- 42_send.md R142: a `SEND` of no bytes completes at once with no primitive, no event and nothing changed but the
operand registers; it too needs `INITED = 1`. (What `CUR_I` holds after it is the model's choice, log 14, and is not
stated.) -/
def Obligations.EmptySendIssuesNothing : Prop :=
  ∀ (s : State) (f : Bool), Accepting s →
    (s.inited = true → ∃ t, exec (.send f []) s = .next t ∧ t = { s with queue := [], curI := t.curI } ∧
      t.trace = s.trace ∧ t.pins = s.pins ∧ t.bf = s.bf ∧ t.phase = .idle ∧ t.cmd = .none ∧ t.fault = none) ∧
    (s.inited = false → exec (.send f []) s = .refused .notInitialised)

/-- 30_encoding.md R81: the two wrappers are their expansions, in every state. -/
def Obligations.WrappersAreTheirExpansions : Prop :=
  ∀ (s : State) (f : Bool) (b : Byte),
    exec (.sendSingle f b) s = exec (.send f [b]) s ∧
    exec .clear s = exec (.sendSingle true s.params.clearInstruction) s ∧
    exec .clear s = exec (.send true [s.params.clearInstruction]) s

/-- 60_exceptions.md R204: every command is refused, with the reason, unless the block is idle with no fault on a
well-formed handle, and initialised for all but `INIT`; and nothing else refuses it. (The names of the reasons, and
which one is given when several hold, are the model's choice, log 29.) -/
def Obligations.CommandsAreRefusedExactlyWhenNotAdmitted : Prop :=
  ∀ (s : State) (f : Bool) (bytes : List Byte) (b : Byte),
    ∀ i ∈ [Instr.init, .waitReady, .send f bytes, .sendSingle f b, .clear],
      (s.handleOk = false → exec i s = .refused .malformedHandle) ∧
      (s.handleOk = true → s.fault ≠ none → exec i s = .refused .afterFault) ∧
      (s.handleOk = true → s.fault = none → (s.phase ≠ .idle ∨ s.cmd ≠ .none) → exec i s = .refused .busy) ∧
      (Accepting s → s.inited = false → i ≠ .init → exec i s = .refused .notInitialised) ∧
      (Accepting s → (s.inited = true ∨ i = .init) → ∃ t, exec i s = .next t)

/-! ### The GPIO primitives -/

/-- 20_memory.md R52: `PinWrite` on an output sets its latch and is an event whatever the latch held; it cannot fail. -/
def Obligations.PinWriteSetsTheLatch : Prop :=
  ∀ (s : State) (p : PinId) (v : Level) (k : State → State), s.modeOf p = .output →
    ∃ t, pinWrite p v k s = .next (k t) ∧ t = { s with pins := t.pins, trace := s.trace ++ [.w p v] } ∧
      DrivesPin s t p v

/-- 20_memory.md R54: `PinSetClear` on outputs sets and clears all its latches in one event, for empty sets too. -/
def Obligations.PinSetClearDrivesBothSetsAtOnce : Prop :=
  ∀ (s : State) (S C : PinSet) (k : State → State), (∀ p ∈ S, p ∉ C) →
    (∀ p ∈ S, s.modeOf p = .output) → (∀ p ∈ C, s.modeOf p = .output) →
    ∃ t, pinSetClear S C k s = .next (k t) ∧ t = { s with pins := t.pins, trace := s.trace ++ [.sc S C] } ∧
      DrivesPins s t S C

/-- 20_memory.md R51, R53: `PinConfig` either takes its settings and is an event, or fails as the environment draws,
with no event and the fault of 60_exceptions.md R195. (That a failed call keeps every latch, the call's own pins
included, is the model's reading, log 7, DEDUCED and unsafe: R195 calls those pins unspecified. The report list is the
model's, log 21. R51 is about a non-empty set of pins of the platform; that a call on any other `P` does the same is the
model's choice, log 32, unsafe.) -/
def Obligations.PinConfigSucceedsOrFaults : Prop :=
  ∀ (s : State) (P : PinSet) (dir : Dir) (k : State → State),
    (s.configWillFail = false → ∃ t, pinConfig P dir .none .off k s = .next (k t) ∧
      t = { s with
        pins := t.pins, trace := s.trace ++ [.cfg P dir], cfgFails := s.cfgFails.tail, draws := s.draws + 1 } ∧
      ConfiguresPins s t P dir) ∧
    (s.configWillFail = true → ∃ t, pinConfig P dir .none .off k s = .next t ∧ FaultsInConfig s t P)

/-- 20_memory.md R55: `PinRead` on an input hands on the level the environment drives and changes no pin; the level is
under no law: it is whatever the environment's next answer is (the list of answers is the model's, log 5). -/
def Obligations.PinReadTakesTheEnvironmentsLevel : Prop :=
  ∀ (s : State) (p : PinId) (k : Level → State → State), s.modeOf p = .input →
    pinRead p k s = .next (k (s.nextLevel p) { s with
      trace := s.trace ++ [.r p (s.nextLevel p)], samples := s.samples.tail, draws := s.draws + 1 }) ∧
    ∀ v more, s.samples = v :: more → s.nextLevel p = v

/-- 20_memory.md R56: a write of a pin that is not an output and a read of a pin that is not an input are refused. -/
def Obligations.PrimitivesAgainstTheModeAreRefused : Prop :=
  ∀ (s : State) (p : PinId) (v : Level) (S C : PinSet) (k : State → State) (r : Level → State → State),
    (s.modeOf p ≠ .output → pinWrite p v k s = .refused .pinNotOutput) ∧
    (s.modeOf p ≠ .output → (p ∈ S ∨ p ∈ C) → pinSetClear S C k s = .refused .pinNotOutput) ∧
    (s.modeOf p ≠ .input → pinRead p r s = .refused .pinNotInput)

/-! ### INIT -/

/-- 40_initialize.md R101: with a width other than 4 and 8 an accepted `INIT` faults in its first sub-step, before any
pin. -/
def Obligations.BadWidthFaultsBeforeAnyPin : Prop :=
  ∀ s : State, Accepting s → ¬ legalWidth s.handle →
    ∃ t₀ t, exec .init s = .next t₀ ∧ step t₀ = .next t ∧
      t.fault = some .badWidth ∧ t.phase = .fault ∧ t.inited = s.inited ∧ t.trace = s.trace ∧ t.pins = s.pins ∧
      t.cmd = .none ∧ t.queue = []

/-- 40_initialize.md R104, 60_exceptions.md R192: a failed configuration call faults at each of the four sub-steps that
make one. (Through `FaultsInConfig`: the kept latches of the call's pins are the model's reading, log 7, DEDUCED and
unsafe, and the report list is log 21. At `WB6` with a timeout pending the spec is silent: that the `ConfigurationError`
alone is reported there is log 28, DEDUCED. What the call does on a handle that names no data pins or none of the platform's
is log 32.) -/
def Obligations.FailedConfigurationFaultsAtEachStep : Prop :=
  ∀ s : State, s.configWillFail = true →
    (s.phase = .config .cf1 ∨ s.phase = .waitBusy .wb0 ∨ s.phase = .waitBusy .wb6 →
      ∃ t, step s = .next t ∧ FaultsInConfig s t (dataSet s.handle)) ∧
    (s.phase = .config .cf2 → ∃ t, step s = .next t ∧ FaultsInConfig s t (ctrlSet s.handle))

/-- 60_exceptions.md R195: from the fault state no step and no instruction answers a next state. With no command
presented the machine stops with the register `FAULT`: that this "no step" is an outcome of its own is the model's (log
19). -/
def Obligations.FaultStateIsAbsorbing : Prop :=
  ∀ s : State, s.phase = .fault →
    (∀ t, step s ≠ .next t) ∧ (∀ i t, exec i s ≠ .next t) ∧
    (decodePort s.port = .incomplete → step s = .fault (.stopped s.fault))

/-- An `INIT` whose configuration calls succeed and whose four handshakes are answered completes, with the events of
R100 and the state the spec infers in 40_initialize.md R107 ("for all `BUS_WIDTH + 3` pins and for no other pin"). How
many steps that takes is the model's (log 15). That the four bytes are queued at once is too (log 30); nothing here
shows it. -/
def Obligations.InitBringsTheControllerUp : Prop :=
  ∀ (s : State) (k₁ k₂ k₃ k₄ : Nat) (bf : PinId), Inv s → Accepting s → legalWidth s.handle →
    bfPin s.handle = some bf → BelowPollLimit s [k₁, k₂, k₃, k₄] →
    (∃ more, s.samples = responsiveSamples [k₁, k₂, k₃, k₄] ++ more) →
    (∃ more, s.cfgFails = List.replicate 10 false ++ more) →
    ∃ t₀ t, exec .init s = .next t₀ ∧ run (4 + bytesSteps [k₁, k₂, k₃, k₄]) t₀ = .next t ∧
      t.trace = s.trace ++ [.cfg (dataSet s.handle) .output, .cfg (ctrlSet s.handle) .output] ++
        bytesEvents s.handle bf true ((bringUpBytes s.params s.handle.busWidth).zip [k₁, k₂, k₃, k₄]) ∧
      (t.trace.length = s.trace.length + 2 + (12 + k₁) + (12 + k₂) + (12 + k₃) + (12 + k₄)) ∧
      (∀ p, p ∈ ctrlList s.handle ∨ p ∈ dataList s.handle → HasSettings t .output p) ∧
      (∀ p, p ∉ ctrlList s.handle → p ∉ dataList s.handle → t.modeOf p = .unconf) ∧
      t.latchOf s.handle.rsPin = some false ∧ t.latchOf s.handle.rwPin = some false ∧
      t.latchOf s.handle.enPin = some false ∧ DataLinesHold t (entryMode s.params s.handle.busWidth) ∧
      EndedWell t ∧ t.inited = true

/-! ### The bus cycles, sub-step by sub-step -/

/-- 41_wait_ready.md R121: the writes of a `BUSY_READ`: register-select low, read/write high, enable high (with `POLLS`
cleared where it exists), and enable low after the last sample. -/
def Obligations.BusyReadDrivesTheControlLines : Prop :=
  ∀ s : State,
    (s.phase = .waitBusy .wb1 → s.modeOf s.handle.rsPin = .output → ∃ t, exec .busyRead s = .next t ∧
      t = { s with pins := t.pins, trace := s.trace ++ [.w s.handle.rsPin false], phase := .waitBusy .wb2 } ∧
      DrivesPin s t s.handle.rsPin false) ∧
    (s.phase = .waitBusy .wb2 → s.modeOf s.handle.rwPin = .output → ∃ t, exec .busyRead s = .next t ∧
      t = { s with pins := t.pins, trace := s.trace ++ [.w s.handle.rwPin true], phase := .waitBusy .wb3 } ∧
      DrivesPin s t s.handle.rwPin true) ∧
    (s.phase = .waitBusy .wb3 → s.modeOf s.handle.enPin = .output → ∃ t, exec .busyRead s = .next t ∧
      t = { s with
        pins := t.pins, trace := s.trace ++ [.w s.handle.enPin true], phase := .waitBusy .wb4,
        polls := if s.params.pollLimit = none then s.polls else 0 } ∧
      DrivesPin s t s.handle.enPin true) ∧
    (s.phase = .waitBusy .wb5 → s.modeOf s.handle.enPin = .output → ∃ t, exec .busyRead s = .next t ∧
      t = { s with pins := t.pins, trace := s.trace ++ [.w s.handle.enPin false], phase := .waitBusy .wb6 } ∧
      DrivesPin s t s.handle.enPin false)

/-- 41_wait_ready.md R122: the direction changes at the two ends of a `BUSY_READ`, and where it goes after the second
(10_state.md R20; 60_exceptions.md R201 for a timeout, raised here and not at `WB4`: log 28, DEDUCED; the report list is
log 21; what the call does on a handle that names no data pins or none of the platform's is log 32). -/
def Obligations.BusyReadTurnsTheDataPins : Prop :=
  ∀ s : State, s.configWillFail = false →
    (s.phase = .waitBusy .wb0 → ∃ t, exec .busyRead s = .next t ∧
      t = { s with
        pins := t.pins, trace := s.trace ++ [.cfg (dataSet s.handle) .input], phase := .waitBusy .wb1,
        cfgFails := s.cfgFails.tail, draws := s.draws + 1 } ∧
      ConfiguresPins s t (dataSet s.handle) .input) ∧
    (s.phase = .waitBusy .wb6 → ∃ t, exec .busyRead s = .next t ∧
      t.trace = s.trace ++ [.cfg (dataSet s.handle) .output] ∧ ConfiguresPins s t (dataSet s.handle) .output ∧
      t.curByte = s.curByte ∧ t.curI = s.curI ∧ t.bf = s.bf ∧ t.fault = s.fault ∧ t.port = s.port ∧
      (s.timedOut = false → s.cmd = .init ∨ s.cmd = .send →
        t.phase = .addressPhase .ap0 ∧ t.cmd = s.cmd ∧ t.queue = s.queue ∧ t.inited = s.inited ∧
        t.reports = s.reports ∧ t.setMask = setMaskOf s.handle s.curByte ∧
        t.clrMask = clrMaskOf s.handle s.curByte) ∧
      (s.timedOut = false → s.cmd = .waitReady →
        t.phase = .idle ∧ t.cmd = .none ∧ t.queue = s.queue ∧ t.inited = s.inited ∧ t.reports = s.reports ∧
        t.setMask = s.setMask ∧ t.clrMask = s.clrMask) ∧
      (s.timedOut = true →
        t.phase = .idle ∧ t.cmd = .none ∧ t.queue = [] ∧ t.inited = s.inited ∧ t.reports = s.reports ++ [.timeout] ∧
        t.timedOut = false ∧ t.setMask = s.setMask ∧ t.clrMask = s.clrMask))

/-- 41_wait_ready.md R123, R124, R130: a `BUSY_READ` sample reads `BF_PIN` only, into `BF`; a 0 leaves the loop, a 1
repeats it, and with `POLL_LIMIT = some n` the `n`-th sample of 1 leaves it as a timeout. (The timeout is marked in the
model's field `timedOut` and raised after `WB6`: log 28, DEDUCED.) -/
def Obligations.BusyReadSamplesTheBusyPin : Prop :=
  ∀ (s : State) (p : PinId), s.phase = .waitBusy .wb4 → bfPin s.handle = some p → s.modeOf p = .input →
    ∃ t, exec .busyRead s = .next t ∧
      t = { s with
        trace := s.trace ++ [.r p (s.nextLevel p)], samples := s.samples.tail, draws := s.draws + 1,
        bf := s.nextLevel p, polls := t.polls, timedOut := t.timedOut, phase := t.phase } ∧
      (s.params.pollLimit = none → t.polls = s.polls ∧ t.timedOut = false ∧
        t.phase = .waitBusy (if s.nextLevel p then .wb4 else .wb5)) ∧
      (∀ n, s.params.pollLimit = some n → t.polls = s.polls + 1 ∧
        (t.timedOut = true ↔ s.nextLevel p = true ∧ s.polls + 1 = n) ∧
        t.phase = .waitBusy (if s.nextLevel p = true ∧ s.polls + 1 ≠ n then .wb4 else .wb5))

/-- 43_bus_cycles.md R171, 42_send.md R145 to R148: the five sub-steps of `IR_WRITE` (register-select low) and `DR_WRITE`
(register-select high): register-select, read/write low, the masks, enable high, enable low; after the last, the next byte
or the end of the command. (That an empty `QUEUE` is the end of an `INIT` rests on log 30, DEDUCED.) -/
def Obligations.WriteCyclesDriveTheBus : Prop :=
  ∀ (s : State) (i : Instr) (rs : Level), (i = .irWrite ∧ s.curI = true ∧ rs = false) ∨
      (i = .drWrite ∧ s.curI = false ∧ rs = true) →
    (s.phase = .addressPhase .ap0 → s.modeOf s.handle.rsPin = .output → ∃ t, exec i s = .next t ∧
      t = { s with pins := t.pins, trace := s.trace ++ [.w s.handle.rsPin rs], phase := .addressPhase .ap1 } ∧
      DrivesPin s t s.handle.rsPin rs) ∧
    (s.phase = .addressPhase .ap1 → s.modeOf s.handle.rwPin = .output → ∃ t, exec i s = .next t ∧
      t = { s with pins := t.pins, trace := s.trace ++ [.w s.handle.rwPin false], phase := .dataDrive } ∧
      DrivesPin s t s.handle.rwPin false) ∧
    (s.phase = .dataDrive → (∀ p ∈ s.setMask, p ∉ s.clrMask) →
      (∀ p, p ∈ s.setMask ∨ p ∈ s.clrMask → s.modeOf p = .output) → ∃ t, exec i s = .next t ∧
      t = { s with pins := t.pins, trace := s.trace ++ [.sc s.setMask s.clrMask], phase := .strobe .st0 } ∧
      DrivesPins s t s.setMask s.clrMask) ∧
    (s.phase = .strobe .st0 → s.modeOf s.handle.enPin = .output → ∃ t, exec i s = .next t ∧
      t = { s with pins := t.pins, trace := s.trace ++ [.w s.handle.enPin true], phase := .strobe .st1 } ∧
      DrivesPin s t s.handle.enPin true) ∧
    (s.phase = .strobe .st1 → s.modeOf s.handle.enPin = .output → ∃ t, exec i s = .next t ∧
      t = { s with
        pins := t.pins, trace := s.trace ++ [.w s.handle.enPin false], phase := .idle, cmd := t.cmd,
        inited := t.inited } ∧
      DrivesPin s t s.handle.enPin false ∧
      (s.queue ≠ [] → t.cmd = s.cmd ∧ t.inited = s.inited) ∧
      (s.queue = [] → t.cmd = .none ∧ (t.inited = true ↔ s.inited = true ∨ s.cmd = .init)))

/-- The frame of the bus cycles, whichever sub-step they are at and however they end: a `BUSY_READ` changes no data
pin's latch and no pin the handle does not name, keeps `CUR_BYTE`, `CUR_I` and `INITED` (41_wait_ready.md R128), and a
write cycle changes no pin's settings and no `BF`, mask, queue or fault register. (A `BUSY_READ` whose configuration
call fails is among the cases: that it too keeps the latches is the model's reading, log 7, DEDUCED.) -/
def Obligations.BusCyclesKeepEverythingElse : Prop :=
  ∀ s t : State,
    (exec .busyRead s = .next t →
      (∀ p, p ∉ ctrlList s.handle → t.latchOf p = s.latchOf p) ∧
      (∀ p, p ∉ ctrlList s.handle → p ∉ dataList s.handle → t.pins[p]? = s.pins[p]?) ∧
      (∀ p, p ∉ dataList s.handle → t.settingsOf p = s.settingsOf p) ∧
      t.handle = s.handle ∧ t.params = s.params ∧ t.curByte = s.curByte ∧ t.curI = s.curI ∧ t.inited = s.inited ∧
      t.port = s.port) ∧
    (∀ i ∈ [Instr.irWrite, .drWrite], exec i s = .next t →
      (∀ p, t.settingsOf p = s.settingsOf p) ∧
      (∀ p, p ∉ ctrlList s.handle → p ∉ s.setMask → p ∉ s.clrMask → t.pins[p]? = s.pins[p]?) ∧
      t.handle = s.handle ∧ t.params = s.params ∧ t.queue = s.queue ∧ t.curByte = s.curByte ∧ t.curI = s.curI ∧
      t.setMask = s.setMask ∧ t.clrMask = s.clrMask ∧ t.bf = s.bf ∧ t.fault = s.fault ∧ t.polls = s.polls ∧
      t.timedOut = s.timedOut ∧ t.reports = s.reports ∧ t.port = s.port ∧ t.samples = s.samples ∧
      t.sampleAfter = s.sampleAfter ∧ t.cfgFails = s.cfgFails ∧ t.draws = s.draws)

/-- 43_bus_cycles.md R171, R172: outside its sub-steps, or with the other value of `CUR_I`, a bus cycle is generated by
nothing. That running it there is refused is the model's choice (log 26, DEDUCED): the two rules say only what generates a
cycle. -/
def Obligations.BusCyclesRunOnlyWhereGenerated : Prop :=
  ∀ s : State,
    ((∀ b, s.phase ≠ .waitBusy b) → exec .busyRead s = .refused .cycleNotInProgress) ∧
    ((¬ InWriteCycle s.phase ∨ s.curI = false) → exec .irWrite s = .refused .cycleNotInProgress) ∧
    ((¬ InWriteCycle s.phase ∨ s.curI = true) → exec .drWrite s = .refused .cycleNotInProgress)

/-! ### Masks -/

/-- 30_encoding.md R78, with the consequences the spec marks as derived from its two definitions ("the two sets are
disjoint; their union is exactly `DATA`", the number of pins, the mask as a number): on a well-formed handle of legal
width `DATA_PIN[j]` stands where bit `j` says, and the bits from `w` on take no part. -/
def Obligations.MasksSplitTheDataPinsByBit : Prop :=
  ∀ (h : Handle) (n : Nat) (b : Byte), handleWellFormed h n → legalWidth h →
    (∀ p, p ∈ setMaskOf h b → p ∉ clrMaskOf h b) ∧
    (∀ p, p ∈ setMaskOf h b ∨ p ∈ clrMaskOf h b ↔ p ∈ dataSet h) ∧
    (∀ j p, j < h.busWidth → h.dataPins[j]? = some p →
      (p ∈ setMaskOf h b ↔ b.getLsbD j = true) ∧ (p ∈ clrMaskOf h b ↔ b.getLsbD j = false)) ∧
    (setMaskOf h b).length = ((List.range h.busWidth).filter fun j => b.getLsbD j).length ∧
    maskNumber (setMaskOf h b) = ((pinsWithBit b true 0 (dataList h)).map (2 ^ ·)).sum ∧
    (∀ c : Byte, (∀ j, j < h.busWidth → c.getLsbD j = b.getLsbD j) →
      setMaskOf h c = setMaskOf h b ∧ clrMaskOf h c = clrMaskOf h b)

/-! ### The invariants -/

/-- A step keeps the sequencer's registers in agreement. (What `SequencerOk` says of the field `timedOut` is the model's,
log 28, and that a byte is queued between any two bytes of an `INIT` is log 30.) -/
def Obligations.StepKeepsTheSequencerInOrder : Prop :=
  ∀ s t : State, SequencerOk s → step s = .next t → SequencerOk t

/-- 10_state.md R18: a step keeps the pins' directions matching the phase. (That a faulted block is left out is the
model's reading, log 20.) -/
def Obligations.StepKeepsDirectionsMatchingThePhase : Prop :=
  ∀ s t : State, Inv s → step s = .next t → DirectionOk t

/-- A step keeps the bus lines at what the sub-step needs: the spec's own inference in 20_memory.md R63 ("already hold the
values of the current byte and keep them until after the matching `W(EN_PIN, 0)`"). -/
def Obligations.StepKeepsTheLinesStable : Prop :=
  ∀ s t : State, Inv s → step s = .next t → LinesOk t

/-- 20_memory.md R58 (b): a step keeps every latch at what the trace says. (For a failed `PinConfig`, which is no event,
this rests on the kept latches of log 7, DEDUCED; for calls on sets that the rules do not speak of, on log 32.) -/
def Obligations.StepKeepsLatchesFollowingTheTrace : Prop :=
  ∀ (lat : PinId → Level) (s t : State), LatchesFollowTrace lat s → step s = .next t → LatchesFollowTrace lat t

/-- In the invariant a command in progress always has a step: the spec's own inference in 20_memory.md R56 ("no admitted
command on a well-formed handle ever reaches such a call"). -/
def Obligations.ACommandInProgressAlwaysSteps : Prop :=
  ∀ s : State, Inv s → s.cmd ≠ .none → ∃ t, step s = .next t

/-- 43_bus_cycles.md R174: enable is never raised with register-select and read/write both high. -/
def Obligations.NoReadOfTheDataRegisterIsStrobed : Prop :=
  ∀ s t : State, Inv s → step s = .next t → t.trace = s.trace ++ [.w s.handle.enPin true] →
    ¬ (t.latchOf s.handle.rsPin = some true ∧ t.latchOf s.handle.rwPin = some true)

/-! ### Whole commands -/

/-- 43_bus_cycles.md R171, R172: each bus cycle, run from its first sub-step, is its sequence of consecutive events: a
write cycle the five of R171 with the masks of `CUR_BYTE`, a `BUSY_READ` whose samples are some 1s and then a 0 the
sequence of R172. -/
def Obligations.BusCyclesAppearAsTheirEvents : Prop :=
  (∀ s : State, Inv s → s.phase = .addressPhase .ap0 →
    ∃ t, run 5 s = .next t ∧ t.trace = s.trace ++ writeCycleEvents s.handle s.curI s.curByte ∧ t.phase = .idle ∧
      t.curByte = s.curByte ∧ t.curI = s.curI ∧ t.queue = s.queue ∧ t.bf = s.bf ∧
      t.latchOf s.handle.rsPin = some (rsLevel s.curI) ∧ t.latchOf s.handle.rwPin = some false ∧
      t.latchOf s.handle.enPin = some false ∧ DataLinesHold t s.curByte) ∧
  ∀ (s : State) (busy : Nat) (bf : PinId), Inv s → s.phase = .waitBusy .wb0 → bfPin s.handle = some bf →
    BelowPollLimit s [busy] → Responsive s [busy] →
    ∃ t, run (handshakeSteps busy) s = .next t ∧ t.trace = s.trace ++ busyReadEvents s.handle bf busy ∧
      t.bf = false ∧ t.curByte = s.curByte ∧ t.curI = s.curI ∧ t.queue = s.queue ∧
      t.latchOf s.handle.rsPin = some false ∧ t.latchOf s.handle.rwPin = some true ∧
      t.latchOf s.handle.enPin = some false ∧
      (∀ p ∈ dataList s.handle, HasSettings t .output p ∧ t.latchOf p = s.latchOf p) ∧
      t.phase = (if s.cmd = .waitReady then .idle else .addressPhase .ap0)

/-- A `WAIT_READY` whose handshake is answered completes, with the events of a `BUSY_READ`, and leaves the bus in read
mode: the spec's own inference in 41_wait_ready.md R127 ("every data pin `MODE = OUT` with its `LATCH` as it was before
the handshake"). That acceptance is a step of its own is the model's (log 15). -/
def Obligations.WaitReadyCompletes : Prop :=
  ∀ (s : State) (busy : Nat) (bf : PinId), Inv s → Accepting s → s.inited = true → bfPin s.handle = some bf →
    BelowPollLimit s [busy] → Responsive s [busy] →
    ∃ t₀ t, exec .waitReady s = .next t₀ ∧ run (handshakeSteps busy) t₀ = .next t ∧
      t.trace = s.trace ++ busyReadEvents s.handle bf busy ∧ EndedWell t ∧ t.inited = true ∧ t.bf = false ∧
      t.latchOf s.handle.rsPin = some false ∧ t.latchOf s.handle.rwPin = some true ∧
      t.latchOf s.handle.enPin = some false ∧
      (∀ p ∈ dataList s.handle, HasSettings t .output p ∧ t.latchOf p = s.latchOf p) ∧
      t.curByte = s.curByte ∧ t.curI = s.curI ∧ t.setMask = s.setMask ∧ t.clrMask = s.clrMask

/-- A `SEND` whose handshakes are answered completes, every byte with the events of R141, in order, and leaves the state
the spec infers in 42_send.md R151 ("the last byte; all `BUS_WIDTH + 3` pins `MODE = OUT`"). That the machine passes
through `IDLE` in a step of its own between two bytes is the model's (log 15). -/
def Obligations.SendTransmitsEveryByte : Prop :=
  ∀ (s : State) (f : Bool) (bytes : List Byte) (busys : List Nat) (bf : PinId),
    Inv s → Accepting s → s.inited = true → bfPin s.handle = some bf → busys.length = bytes.length →
    BelowPollLimit s busys → Responsive s busys →
    ∃ t₀ t, exec (.send f bytes) s = .next t₀ ∧ run (bytesSteps busys) t₀ = .next t ∧
      t.trace = s.trace ++ bytesEvents s.handle bf f (bytes.zip busys) ∧
      (t.trace.length = s.trace.length + (busys.map (12 + ·)).sum) ∧ EndedWell t ∧ t.inited = true ∧
      (∀ p, p ∈ ctrlList s.handle ∨ p ∈ dataList s.handle → HasSettings t .output p) ∧
      (∀ b, bytes.getLast? = some b → t.bf = false ∧ t.latchOf s.handle.rsPin = some (rsLevel f) ∧
        t.latchOf s.handle.rwPin = some false ∧ t.latchOf s.handle.enPin = some false ∧ DataLinesHold t b)

/-- What the controller receives, the spec's own inference in 43_bus_cycles.md R175 ("`WRITES(T)` has one entry per byte
transmitted, in order"): the events of a sequence of bytes add one entry per byte, whatever the latches were, and a
handshake adds none. -/
def Obligations.WritesListsEachByteOnce : Prop :=
  ∀ (h : Handle) (n : Nat) (bf : PinId) (f : Bool) (xs : List (Byte × Nat)) (lat : PinId → Level),
    handleWellFormed h n → legalWidth h → bfPin h = some bf →
    writesOf h lat (bytesEvents h bf f xs) = xs.map (fun x => (rsLevel f, lowBits h x.1)) ∧
    ∀ busy, writesOf h lat (busyReadEvents h bf busy) = []

/-- 41_wait_ready.md R125: the hang: with no bound, as long as every sample is 1 the block stays at `WB4` with the lines
as they are, one read event a step, for any number of steps. -/
def Obligations.BusyControllerHangsTheBlock : Prop :=
  ∀ (s : State) (k : Nat) (bf : PinId), Inv s → s.phase = .waitBusy .wb4 → s.params.pollLimit = none →
    bfPin s.handle = some bf → (∃ more, s.samples = List.replicate k true ++ more) →
    ∃ t, run k s = .next t ∧ t.phase = .waitBusy .wb4 ∧ t.trace = s.trace ++ List.replicate k (.r bf true) ∧
      t.pins = s.pins ∧ t.cmd = s.cmd ∧ t.queue = s.queue ∧ t.curByte = s.curByte ∧ t.fault = none ∧
      t.latchOf s.handle.rsPin = some false ∧ t.latchOf s.handle.rwPin = some true ∧
      t.latchOf s.handle.enPin = some true ∧ (∀ p ∈ dataList s.handle, t.modeOf p = .input)

/-- 41_wait_ready.md R130, 60_exceptions.md R201 (the report list is the model's, log 21): with `POLL_LIMIT = some n` a
handshake whose `n` samples are all 1 ends in a timeout: enable low, data pins outputs, the rest of the command dropped,
the host told, and no fault. -/
def Obligations.PollLimitEndsTheHandshake : Prop :=
  ∀ (s : State) (n : Nat) (bf : PinId), Inv s → s.phase = .waitBusy .wb0 →
    s.params.pollLimit = some n → 1 ≤ n →
    bfPin s.handle = some bf → (∃ more, s.samples = List.replicate n true ++ more) →
    (∃ more, s.cfgFails = false :: false :: more) →
    ∃ t, run (6 + n) s = .next t ∧ EndedWell t ∧ t.inited = s.inited ∧ t.reports = s.reports ++ [.timeout] ∧
      t.trace = s.trace ++ [.cfg (dataSet s.handle) .input, .w s.handle.rsPin false, .w s.handle.rwPin true,
        .w s.handle.enPin true] ++ List.replicate n (.r bf true) ++
        [.w s.handle.enPin false, .cfg (dataSet s.handle) .output] ∧
      t.latchOf s.handle.enPin = some false ∧
      (∀ p ∈ dataList s.handle, HasSettings t .output p ∧ t.latchOf p = s.latchOf p)

/-- 42_send.md R152, 20_memory.md R47: the bits of a byte from `BUS_WIDTH` on are invisible: two states that differ in
them only run alike for ever, with the same events and pins. -/
def Obligations.DroppedBitsAreInvisible : Prop :=
  (∀ (s t : State) (k : Nat) (s' : State), SameLowBits s t → run k s = .next s' →
    ∃ t', run k t = .next t' ∧ SameLowBits s' t' ∧ t'.trace = s'.trace ∧ t'.pins = s'.pins) ∧
  ∀ (s : State) (f : Bool) (bytes bytes' : List Byte) (s' : State),
    bytes'.map (lowBits s.handle) = bytes.map (lowBits s.handle) → exec (.send f bytes) s = .next s' →
    ∃ t', exec (.send f bytes') s = .next t' ∧ SameLowBits s' t'

/-! ### Errors -/

/-- The codes of 60_exceptions.md R193, and where each error is raised: a step either leaves `FAULT` and what the host
was told alone, or tells it one code more: 1 at `CF0` on a bad width and 2 at `CF1`, `CF2`, `WB0` or `WB6` on a failed
configuration call, both left in `FAULT`, or 3 at the end of a handshake that reached `POLL_LIMIT`, which leaves `FAULT`
alone. (The report list is the model's, log 21. The table has `TIMEOUT` raised at `WB4`; the model decides it there and
reports it after `WB6`, log 28, DEDUCED.) -/
def Obligations.ErrorsCarryTheirCodes : Prop :=
  (ErrorCode.number .badWidth = 1 ∧ ErrorCode.number .gpioConfig = 2 ∧ ErrorCode.number .timeout = 3) ∧
  ∀ s t : State, step s = .next t →
    (t.reportedNumbers = s.reportedNumbers ∧ t.faultNumber = s.faultNumber) ∨
    (t.reportedNumbers = s.reportedNumbers ++ [1] ∧ t.faultNumber = some 1 ∧ t.phase = .fault ∧
      s.phase = .config .cf0 ∧ ¬ legalWidth s.handle) ∨
    (t.reportedNumbers = s.reportedNumbers ++ [2] ∧ t.faultNumber = some 2 ∧ t.phase = .fault ∧
      s.configWillFail = true ∧
      s.phase ∈ [.config .cf1, .config .cf2, .waitBusy .wb0, .waitBusy .wb6]) ∨
    (t.reportedNumbers = s.reportedNumbers ++ [3] ∧ t.faultNumber = s.faultNumber ∧ t.phase = .idle ∧
      s.configWillFail = false ∧ s.phase = .waitBusy .wb6 ∧ s.timedOut = true)

/-! ### How a run stands -/

/-- 70_reset_and_hazards.md R234: every run from a state of the invariant ends well, faults, hangs or is refused, where a
reserved header on the port is refused too (30_encoding.md R74); and, 60_exceptions.md R200, a run that does one of the
others does not hang. (That the steps in which the block waits for a command are no part of a run is log 31, DEDUCED.) -/
def Obligations.ARunEndsWellFaultsHangsOrIsRefused : Prop :=
  ∀ s : State,
    (Inv s → RunEndsWell s ∨ RunFaults s ∨ RunHangs s ∨ RunIsRefused s ∨
      ∃ k why, run k s = .refused (.reservedEncoding why)) ∧
    (RunEndsWell s ∨ RunFaults s ∨ (∃ k why, run k s = .refused why) → ¬ RunHangs s)

/-- 41_wait_ready.md R125, 60_exceptions.md R200, and the spec's own inference in 70_reset_and_hazards.md R222 ("every loop
other than the sampling loop is bounded"): a run hangs exactly when it comes to sample 1 for ever. (The waiting steps are
log 31, DEDUCED.) -/
def Obligations.ARunHangsExactlyWhenItSamplesForEver : Prop :=
  ∀ s : State, RunHangs s ↔ ∃ k t, run k s = .next t ∧ SamplesForEver t

/-- 41_wait_ready.md R125: at `WB4` with no bound the block samples for ever exactly when every sample returns 1. (How the
environment answers is written in the model's own fields and free values, log 5.) -/
def Obligations.SamplingGoesOnWhileEverySampleIsOne : Prop :=
  ∀ (s : State) (bf : PinId), Inv s → s.phase = .waitBusy .wb4 → s.params.pollLimit = none → bfPin s.handle = some bf →
    (SamplesForEver s ↔ ∀ j, s.sampleAt j bf = true)

/-- 70_reset_and_hazards.md R227: with no bound and a controller that is stuck busy, every command but an empty `SEND` hangs
once its configuration calls up to the first handshake have succeeded. (How the environment answers is log 5 and log 6, the
waiting steps log 31, DEDUCED.) -/
def Obligations.AStuckControllerHangsEveryCommand : Prop :=
  ∀ (s : State) (i : Instr), Inv s → Accepting s → legalWidth s.handle → s.params.pollLimit = none →
    s.samples = [] → s.sampleAfter = some true → (∃ more, s.cfgFails = [false, false, false] ++ more) →
    (i = .init ∨ s.inited = true ∧ (i = .waitReady ∨ (∃ f b bs, i = .send f (b :: bs)) ∨ (∃ f b, i = .sendSingle f b) ∨
      i = .clear)) →
    ∃ t, exec i s = .next t ∧ RunHangs t

/-- 41_wait_ready.md R130, 60_exceptions.md R201 ("rather than hanging"): with `POLL_LIMIT = some n` no run hangs. (That a
bound has `n` at least 1 is 00_scope.md R4; what the model does at 0 is log 17. The waiting steps are log 31, DEDUCED.) -/
def Obligations.WithAPollLimitNoRunHangs : Prop :=
  ∀ (s : State) (n : Nat), s.params.pollLimit = some n → 1 ≤ n → SequencerOk s → ¬ RunHangs s
end

