-- ==== Sys2Proof/Laws/Decode.lean ====
section
/-! SUPPORT. Laws of the header word and of the payload of a `SEND`: the fields of a word built from fields, the word built
from its fields, and what the payload decoder takes. -/

namespace Sys2Proof

/-- Every bit of a header word (30_encoding.md R71). -/
theorem getLsbD_headerWord (op : BitVec 4) (f : Bool) (arg : BitVec 16) (i : Nat) :
    (headerWord op f arg).getLsbD i =
      if i < 16 then arg.getLsbD i else if i = 16 then f else if i < 28 then false else op.getLsbD (i - 28) := by
  show BitVec.getLsbD (w := 4 + 11 + 1 + 16) (op ++ 0#11 ++ BitVec.ofBool f ++ arg) i = _
  simp only [BitVec.getLsbD_append]
  by_cases h1 : i < 16
  · simp [h1]
  · by_cases h2 : i = 16
    · subst h2; simp
    · simp only [h1, h2, if_false, show ¬ i - 16 < 1 by omega]
      by_cases h3 : i < 28
      · simp [h3, show i - 16 - 1 < 11 by omega]
      · simp [h3, show ¬ i - 16 - 1 < 11 by omega, show i - 16 - 1 - 11 = i - 28 by omega]

section
variable (op : BitVec 4) (f : Bool) (arg : BitVec 16)

@[simp] theorem headerOp_headerWord : headerOp (headerWord op f arg) = op := by
  ext i hi
  simp [headerOp, getLsbD_headerWord, show ¬ 28 + i < 16 by omega, show ¬ 28 + i = 16 by omega, hi]

@[simp] theorem headerZero_headerWord : headerZero (headerWord op f arg) = 0 := by
  ext i hi
  simp [headerZero, getLsbD_headerWord, show ¬ 17 + i < 16 by omega, show ¬ 17 + i = 16 by omega,
    show 17 + i < 28 by omega]

@[simp] theorem headerFlag_headerWord : headerFlag (headerWord op f arg) = f := by
  simp only [headerFlag, getLsbD_headerWord]; simp

@[simp] theorem headerArg_headerWord : headerArg (headerWord op f arg) = arg := by
  ext i hi
  simp [headerArg, getLsbD_headerWord, hi]

end

/-- `arg` is its two bytes. -/
theorem headerArg_eq_high_low (w : BitVec 32) : headerArg w = headerArgHigh w ++ headerArgLow w := by
  ext i hi
  show _ = BitVec.getLsbD (w := 8 + 8) (headerArgHigh w ++ headerArgLow w) i
  rw [BitVec.getLsbD_append]
  by_cases h : i < 8
  · simp [headerArg, headerArgLow, h]
  · simp [headerArg, headerArgHigh, h, show i - 8 < 8 by omega, show 8 + (i - 8) = i by omega]

theorem byte_append_inj {a b c d : Byte} (h : (a ++ b : BitVec 16) = c ++ d) : a = c ∧ b = d := by
  have key : ∀ i, BitVec.getLsbD (w := 8 + 8) (a ++ b) i = BitVec.getLsbD (w := 8 + 8) (c ++ d) i := fun i =>
    congrArg (fun v => BitVec.getLsbD v i) h
  simp only [BitVec.getLsbD_append] at key
  constructor <;> ext i hi
  · simpa [hi, show ¬ 8 + i < 8 by omega] using key (8 + i)
  · simpa [hi] using key i

@[simp] theorem headerArgHigh_headerWord (op : BitVec 4) (f : Bool) (b c : Byte) :
    headerArgHigh (headerWord op f (b ++ c)) = b :=
  (byte_append_inj ((headerArg_eq_high_low _).symm.trans (headerArg_headerWord op f (b ++ c)))).1

@[simp] theorem headerArgLow_headerWord (op : BitVec 4) (f : Bool) (b c : Byte) :
    headerArgLow (headerWord op f (b ++ c)) = c :=
  (byte_append_inj ((headerArg_eq_high_low _).symm.trans (headerArg_headerWord op f (b ++ c)))).2

/-- A header whose `zero` field is 0 is the word of its other fields (30_encoding.md R71). -/
theorem headerWord_of_fields {w : BitVec 32} (h : headerZero w = 0) :
    headerWord (headerOp w) (headerFlag w) (headerArg w) = w := by
  have hz : ∀ i, i < 11 → w.getLsbD (17 + i) = false := fun i hi => by
    have := congrArg (fun v => v.getLsbD i) h
    simpa [headerZero, hi] using this
  apply BitVec.eq_of_getLsbD_eq
  intro i hi
  rw [getLsbD_headerWord]
  split
  next h1 => simp [headerArg, h1]
  split
  next h2 => rw [h2]; rfl
  split
  next h1 h2 h3 => rw [← hz (i - 17) (by omega), show 17 + (i - 17) = i by omega]
  next h1 h2 h3 => simp [headerOp, show i - 28 < 4 by omega, show 28 + (i - 28) = i by omega]

/-- The payload decoder takes the beats of the payload and leaves the rest (30_encoding.md R73). -/
theorem decodePayload_beats (f : Bool) (got bytes : List Byte) (rest : List PortWord) :
    decodePayload f got bytes.length (bytes.map PortWord.beat ++ rest) =
      .instr (.send f (got.reverse ++ bytes)) rest := by
  induction bytes generalizing got with
  | nil => simp [decodePayload]
  | cons b bs ih => simp [decodePayload, ih]

/-- What the payload decoder takes when it answers: exactly as many beats as the header announced. -/
theorem decodePayload_inv {f : Bool} {n : Nat} {got : List Byte} {ws rest : List PortWord} {i : Instr}
    (h : decodePayload f got n ws = .instr i rest) :
    ∃ bytes, bytes.length = n ∧ ws = bytes.map PortWord.beat ++ rest ∧ i = .send f (got.reverse ++ bytes) := by
  induction n generalizing got ws with
  | zero => simp only [decodePayload, Decoded.instr.injEq] at h; exact ⟨[], rfl, h.2, by simp [← h.1]⟩
  | succ n ih =>
    match ws, h with
    | .beat b :: ws, h =>
      obtain ⟨bs, hl, rfl, rfl⟩ := ih h
      exact ⟨b :: bs, by simp [hl], rfl, by simp⟩

end Sys2Proof
end

