-- ==== Sys2Proof/Laws/PinSets.lean ====
section
/-! SUPPORT. Laws of pin sets: what `pinSetOf` holds, that equal sets are equal lists, and what the masks of a byte
cover (30_encoding.md R78). -/

namespace Sys2Proof.Machine

@[simp] theorem mem_insertPin {p q : PinId} {P : PinSet} : q ∈ insertPin p P ↔ q = p ∨ q ∈ P := by
  induction P with
  | nil => simp [insertPin]
  | cons r rs ih =>
    unfold insertPin
    split
    · simp
    · split
      · subst_vars; simp
      · simp [ih]; tauto

@[simp] theorem mem_pinSetOf {q : PinId} {ps : List PinId} : q ∈ pinSetOf ps ↔ q ∈ ps := by
  induction ps with
  | nil => simp [pinSetOf]
  | cons p ps ih => simp [pinSetOf, ih]

/-- A pin set in its one form: strictly ascending. -/
abbrev Ascending (P : PinSet) : Prop := P.Pairwise (· < ·)

theorem insertPin_ascending {p : PinId} {P : PinSet} (h : Ascending P) : Ascending (insertPin p P) := by
  induction P with
  | nil => simp [insertPin]
  | cons r rs ih =>
    have hr := List.pairwise_cons.1 h
    unfold insertPin
    split
    next hlt =>
      exact List.pairwise_cons.2 ⟨fun q hq => by
        rcases List.mem_cons.1 hq with rfl | hq
        · exact hlt
        · exact hlt.trans (hr.1 q hq), h⟩
    next hge =>
      split
      · exact h
      next hne =>
        refine List.pairwise_cons.2 ⟨fun q hq => ?_, ih hr.2⟩
        rcases mem_insertPin.1 hq with rfl | hq
        · exact Nat.lt_of_le_of_ne (Nat.not_lt.1 hge) (Ne.symm hne)
        · exact hr.1 q hq

theorem pinSetOf_ascending (ps : List PinId) : Ascending (pinSetOf ps) := by
  induction ps with
  | nil => simp [pinSetOf]
  | cons p ps ih => exact insertPin_ascending ih

/-- Equal sets are equal lists. -/
theorem ascending_ext {P Q : PinSet} (hP : Ascending P) (hQ : Ascending Q) (h : ∀ p, p ∈ P ↔ p ∈ Q) : P = Q :=
  List.Perm.eq_of_pairwise' hP hQ
    ((List.perm_ext_iff_of_nodup (hP.imp fun h => Nat.ne_of_lt h) (hQ.imp fun h => Nat.ne_of_lt h)).2 h)

theorem pinSetOf_congr {ps qs : List PinId} (h : ∀ p, p ∈ ps ↔ p ∈ qs) : pinSetOf ps = pinSetOf qs :=
  ascending_ext (pinSetOf_ascending ps) (pinSetOf_ascending qs) (by simpa using h)

@[simp] theorem mem_dataSet {h : Handle} {p : PinId} : p ∈ dataSet h ↔ p ∈ dataList h := by simp [dataSet]

@[simp] theorem mem_ctrlSet {h : Handle} {p : PinId} : p ∈ ctrlSet h ↔ p ∈ ctrlList h := by simp [ctrlSet]

theorem mem_ctrlList {h : Handle} {p : PinId} :
    p ∈ ctrlList h ↔ p = h.rsPin ∨ p = h.rwPin ∨ p = h.enPin := by simp [ctrlList]

@[simp] theorem rsPin_mem (h : Handle) : h.rsPin ∈ ctrlList h := by simp [ctrlList]
@[simp] theorem rwPin_mem (h : Handle) : h.rwPin ∈ ctrlList h := by simp [ctrlList]
@[simp] theorem enPin_mem (h : Handle) : h.enPin ∈ ctrlList h := by simp [ctrlList]

/-- Which pins have a given bit: those at an index `i` whose bit `j + i` is that level. -/
theorem mem_pinsWithBit {b : Byte} {v : Bool} {j : Nat} {ps : List PinId} {p : PinId} :
    p ∈ pinsWithBit b v j ps ↔ ∃ i : Nat, ps[i]? = some p ∧ b.getLsbD (j + i) = v := by
  induction ps generalizing j with
  | nil => simp [pinsWithBit]
  | cons q qs ih =>
    have key : p ∈ pinsWithBit b v j (q :: qs) ↔
        (p = q ∧ b.getLsbD j = v) ∨ p ∈ pinsWithBit b v (j + 1) qs := by
      rw [pinsWithBit]; split <;> simp [*]
    rw [key, ih]
    constructor
    · rintro (⟨rfl, hb⟩ | ⟨i, hi, hb⟩)
      · exact ⟨0, by simp, by simpa using hb⟩
      · exact ⟨i + 1, by simpa using hi, by rw [← hb]; congr 1; omega⟩
    · rintro ⟨i, hi, hb⟩
      cases i with
      | zero => exact .inl ⟨by simpa using hi.symm, by simpa using hb⟩
      | succ i => exact .inr ⟨i, by simpa using hi, by rw [← hb]; congr 1; omega⟩

/-- The set-mask: the data pins whose bit of the byte is 1 (30_encoding.md R78). -/
theorem mem_setMaskOf {h : Handle} {b : Byte} {p : PinId} :
    p ∈ setMaskOf h b ↔ ∃ j : Nat, (dataList h)[j]? = some p ∧ b.getLsbD j = true := by
  simp [setMaskOf, mem_pinsWithBit]

/-- The clear-mask: the data pins whose bit of the byte is 0 (30_encoding.md R78). -/
theorem mem_clrMaskOf {h : Handle} {b : Byte} {p : PinId} :
    p ∈ clrMaskOf h b ↔ ∃ j : Nat, (dataList h)[j]? = some p ∧ b.getLsbD j = false := by
  simp [clrMaskOf, mem_pinsWithBit]

theorem mem_dataList_iff_index {h : Handle} {p : PinId} : p ∈ dataList h ↔ ∃ j : Nat, (dataList h)[j]? = some p := by
  rw [List.mem_iff_getElem?]

/-- The masks are sets of data pins. -/
theorem setMaskOf_subset {h : Handle} {b : Byte} {p : PinId} (hp : p ∈ setMaskOf h b) : p ∈ dataList h := by
  obtain ⟨j, hj, -⟩ := mem_setMaskOf.1 hp
  exact mem_dataList_iff_index.2 ⟨j, hj⟩

theorem clrMaskOf_subset {h : Handle} {b : Byte} {p : PinId} (hp : p ∈ clrMaskOf h b) : p ∈ dataList h := by
  obtain ⟨j, hj, -⟩ := mem_clrMaskOf.1 hp
  exact mem_dataList_iff_index.2 ⟨j, hj⟩

/-- Two masks of bytes that agree on the bits below `BUS_WIDTH` are equal (20_memory.md R47). -/
theorem pinsWithBit_congr {b c : Byte} {v : Bool} {j : Nat} {ps : List PinId}
    (h : ∀ i, i < ps.length → b.getLsbD (j + i) = c.getLsbD (j + i)) :
    pinsWithBit b v j ps = pinsWithBit c v j ps := by
  induction ps generalizing j with
  | nil => rfl
  | cons p ps ih =>
    have h0 : b.getLsbD j = c.getLsbD j := by simpa using h 0 (by simp)
    have ht : pinsWithBit b v (j + 1) ps = pinsWithBit c v (j + 1) ps := ih fun i hi => by
      have := h (i + 1) (by simpa using hi)
      rwa [show j + 1 + i = j + (i + 1) by omega]
    simp [pinsWithBit, h0, ht]

/-! ### What a well-formed handle gives -/

theorem dataList_length_le {h : Handle} : (dataList h).length ≤ h.busWidth := by
  simp only [dataList, List.length_take]; omega

section
variable {h : Handle} {n : Nat} (hw : handleWellFormed h n)
include hw

theorem rs_ne_rw : h.rsPin ≠ h.rwPin := by
  have := hw.1; unfold usedPins at this; split at this <;> simp_all [ctrlList]

theorem rs_ne_en : h.rsPin ≠ h.enPin := by
  have := hw.1; unfold usedPins at this; split at this <;> simp_all [ctrlList]

theorem rw_ne_en : h.rwPin ≠ h.enPin := by
  have := hw.1; unfold usedPins at this; split at this <;> simp_all [ctrlList]

theorem ctrl_lt {p : PinId} (hp : p ∈ ctrlList h) : p < n :=
  hw.2.1 p (by unfold usedPins; split <;> simp [hp])

variable (hl : legalWidth h)
include hl

theorem data_lt {p : PinId} (hp : p ∈ dataList h) : p < n := hw.2.1 p (by simp [usedPins, hl, hp])

theorem dataList_nodup : (dataList h).Nodup := by
  have := hw.1; simp only [usedPins, hl, if_true] at this; exact (List.nodup_append.1 this).2.1

theorem ctrl_not_data {p : PinId} (hc : p ∈ ctrlList h) : p ∉ dataList h := fun hd => by
  have := hw.1; simp only [usedPins, hl, if_true] at this
  exact (List.nodup_append.1 this).2.2 p hc p hd rfl

theorem dataList_length : (dataList h).length = h.busWidth := by
  simp [dataList, hw.2.2 hl]

theorem dataList_eq : dataList h = h.dataPins := by
  simp [dataList, ← hw.2.2 hl]

/-- A well-formed handle of legal width has a busy pin, and it is a data pin (41_wait_ready.md R123). -/
theorem exists_bfPin : ∃ p, bfPin h = some p ∧ p ∈ dataList h := by
  have hlen := hw.2.2 hl
  have hpos : h.busWidth - 1 < h.dataPins.length := by rcases hl with e | e <;> omega
  exact ⟨h.dataPins[h.busWidth - 1], by simp [bfPin, hpos], by
    rw [dataList_eq hw hl]; exact List.getElem_mem hpos⟩

/-- A data pin stands at one index only, so it is in one mask only. -/
theorem data_index_unique {i j : Nat} {p : PinId} (hi : (dataList h)[i]? = some p) (hj : (dataList h)[j]? = some p) :
    i = j := by
  obtain ⟨hi', ei⟩ := List.getElem?_eq_some_iff.1 hi
  obtain ⟨hj', ej⟩ := List.getElem?_eq_some_iff.1 hj
  exact (List.Nodup.getElem_inj_iff (dataList_nodup hw hl)).1 (ei.trans ej.symm)

end

end Sys2Proof.Machine
end

