-- ==== Sys2Proof/Laws/State.lean ====
section
/-! SUPPORT. One lemma per field per update of the state: what each named update leaves in each field. -/

namespace Sys2Proof.Machine

/-! ### emit -/

@[simp] theorem emit_handle (s : State) (e : Event) : (s.emit e).handle = s.handle := rfl
@[simp] theorem emit_params (s : State) (e : Event) : (s.emit e).params = s.params := rfl
@[simp] theorem emit_pins (s : State) (e : Event) : (s.emit e).pins = s.pins := rfl
@[simp] theorem emit_phase (s : State) (e : Event) : (s.emit e).phase = s.phase := rfl
@[simp] theorem emit_cmd (s : State) (e : Event) : (s.emit e).cmd = s.cmd := rfl
@[simp] theorem emit_queue (s : State) (e : Event) : (s.emit e).queue = s.queue := rfl
@[simp] theorem emit_curByte (s : State) (e : Event) : (s.emit e).curByte = s.curByte := rfl
@[simp] theorem emit_curI (s : State) (e : Event) : (s.emit e).curI = s.curI := rfl
@[simp] theorem emit_setMask (s : State) (e : Event) : (s.emit e).setMask = s.setMask := rfl
@[simp] theorem emit_clrMask (s : State) (e : Event) : (s.emit e).clrMask = s.clrMask := rfl
@[simp] theorem emit_bf (s : State) (e : Event) : (s.emit e).bf = s.bf := rfl
@[simp] theorem emit_fault (s : State) (e : Event) : (s.emit e).fault = s.fault := rfl
@[simp] theorem emit_inited (s : State) (e : Event) : (s.emit e).inited = s.inited := rfl
@[simp] theorem emit_polls (s : State) (e : Event) : (s.emit e).polls = s.polls := rfl
@[simp] theorem emit_trace (s : State) (e : Event) : (s.emit e).trace = s.trace ++ [e] := rfl
@[simp] theorem emit_timedOut (s : State) (e : Event) : (s.emit e).timedOut = s.timedOut := rfl
@[simp] theorem emit_reports (s : State) (e : Event) : (s.emit e).reports = s.reports := rfl
@[simp] theorem emit_port (s : State) (e : Event) : (s.emit e).port = s.port := rfl
@[simp] theorem emit_samples (s : State) (e : Event) : (s.emit e).samples = s.samples := rfl
@[simp] theorem emit_sampleAfter (s : State) (e : Event) : (s.emit e).sampleAfter = s.sampleAfter := rfl
@[simp] theorem emit_cfgFails (s : State) (e : Event) : (s.emit e).cfgFails = s.cfgFails := rfl
@[simp] theorem emit_draws (s : State) (e : Event) : (s.emit e).draws = s.draws := rfl

/-! ### goto -/

@[simp] theorem goto_handle (f : Phase) (s : State) : (s.goto f).handle = s.handle := rfl
@[simp] theorem goto_params (f : Phase) (s : State) : (s.goto f).params = s.params := rfl
@[simp] theorem goto_pins (f : Phase) (s : State) : (s.goto f).pins = s.pins := rfl
@[simp] theorem goto_phase (f : Phase) (s : State) : (s.goto f).phase = f := rfl
@[simp] theorem goto_cmd (f : Phase) (s : State) : (s.goto f).cmd = s.cmd := rfl
@[simp] theorem goto_queue (f : Phase) (s : State) : (s.goto f).queue = s.queue := rfl
@[simp] theorem goto_curByte (f : Phase) (s : State) : (s.goto f).curByte = s.curByte := rfl
@[simp] theorem goto_curI (f : Phase) (s : State) : (s.goto f).curI = s.curI := rfl
@[simp] theorem goto_setMask (f : Phase) (s : State) : (s.goto f).setMask = s.setMask := rfl
@[simp] theorem goto_clrMask (f : Phase) (s : State) : (s.goto f).clrMask = s.clrMask := rfl
@[simp] theorem goto_bf (f : Phase) (s : State) : (s.goto f).bf = s.bf := rfl
@[simp] theorem goto_fault (f : Phase) (s : State) : (s.goto f).fault = s.fault := rfl
@[simp] theorem goto_inited (f : Phase) (s : State) : (s.goto f).inited = s.inited := rfl
@[simp] theorem goto_polls (f : Phase) (s : State) : (s.goto f).polls = s.polls := rfl
@[simp] theorem goto_trace (f : Phase) (s : State) : (s.goto f).trace = s.trace := rfl
@[simp] theorem goto_timedOut (f : Phase) (s : State) : (s.goto f).timedOut = s.timedOut := rfl
@[simp] theorem goto_reports (f : Phase) (s : State) : (s.goto f).reports = s.reports := rfl
@[simp] theorem goto_port (f : Phase) (s : State) : (s.goto f).port = s.port := rfl
@[simp] theorem goto_samples (f : Phase) (s : State) : (s.goto f).samples = s.samples := rfl
@[simp] theorem goto_sampleAfter (f : Phase) (s : State) : (s.goto f).sampleAfter = s.sampleAfter := rfl
@[simp] theorem goto_cfgFails (f : Phase) (s : State) : (s.goto f).cfgFails = s.cfgFails := rfl
@[simp] theorem goto_draws (f : Phase) (s : State) : (s.goto f).draws = s.draws := rfl

/-! ### withPort -/

@[simp] theorem withPort_handle (s : State) (ws : List PortWord) : (s.withPort ws).handle = s.handle := rfl
@[simp] theorem withPort_params (s : State) (ws : List PortWord) : (s.withPort ws).params = s.params := rfl
@[simp] theorem withPort_pins (s : State) (ws : List PortWord) : (s.withPort ws).pins = s.pins := rfl
@[simp] theorem withPort_phase (s : State) (ws : List PortWord) : (s.withPort ws).phase = s.phase := rfl
@[simp] theorem withPort_cmd (s : State) (ws : List PortWord) : (s.withPort ws).cmd = s.cmd := rfl
@[simp] theorem withPort_queue (s : State) (ws : List PortWord) : (s.withPort ws).queue = s.queue := rfl
@[simp] theorem withPort_curByte (s : State) (ws : List PortWord) : (s.withPort ws).curByte = s.curByte := rfl
@[simp] theorem withPort_curI (s : State) (ws : List PortWord) : (s.withPort ws).curI = s.curI := rfl
@[simp] theorem withPort_setMask (s : State) (ws : List PortWord) : (s.withPort ws).setMask = s.setMask := rfl
@[simp] theorem withPort_clrMask (s : State) (ws : List PortWord) : (s.withPort ws).clrMask = s.clrMask := rfl
@[simp] theorem withPort_bf (s : State) (ws : List PortWord) : (s.withPort ws).bf = s.bf := rfl
@[simp] theorem withPort_fault (s : State) (ws : List PortWord) : (s.withPort ws).fault = s.fault := rfl
@[simp] theorem withPort_inited (s : State) (ws : List PortWord) : (s.withPort ws).inited = s.inited := rfl
@[simp] theorem withPort_polls (s : State) (ws : List PortWord) : (s.withPort ws).polls = s.polls := rfl
@[simp] theorem withPort_trace (s : State) (ws : List PortWord) : (s.withPort ws).trace = s.trace := rfl
@[simp] theorem withPort_timedOut (s : State) (ws : List PortWord) : (s.withPort ws).timedOut = s.timedOut := rfl
@[simp] theorem withPort_reports (s : State) (ws : List PortWord) : (s.withPort ws).reports = s.reports := rfl
@[simp] theorem withPort_port (s : State) (ws : List PortWord) : (s.withPort ws).port = ws := rfl
@[simp] theorem withPort_samples (s : State) (ws : List PortWord) : (s.withPort ws).samples = s.samples := rfl
@[simp] theorem withPort_sampleAfter (s : State) (ws : List PortWord) : (s.withPort ws).sampleAfter = s.sampleAfter := rfl
@[simp] theorem withPort_cfgFails (s : State) (ws : List PortWord) : (s.withPort ws).cfgFails = s.cfgFails := rfl
@[simp] theorem withPort_draws (s : State) (ws : List PortWord) : (s.withPort ws).draws = s.draws := rfl

/-! ### loadByte -/

@[simp] theorem loadByte_handle (b : Byte) (bs : List Byte) (s : State) : (loadByte b bs s).handle = s.handle := rfl
@[simp] theorem loadByte_params (b : Byte) (bs : List Byte) (s : State) : (loadByte b bs s).params = s.params := rfl
@[simp] theorem loadByte_pins (b : Byte) (bs : List Byte) (s : State) : (loadByte b bs s).pins = s.pins := rfl
@[simp] theorem loadByte_phase (b : Byte) (bs : List Byte) (s : State) : (loadByte b bs s).phase = .waitBusy .wb0 := rfl
@[simp] theorem loadByte_cmd (b : Byte) (bs : List Byte) (s : State) : (loadByte b bs s).cmd = s.cmd := rfl
@[simp] theorem loadByte_queue (b : Byte) (bs : List Byte) (s : State) : (loadByte b bs s).queue = bs := rfl
@[simp] theorem loadByte_curByte (b : Byte) (bs : List Byte) (s : State) : (loadByte b bs s).curByte = b := rfl
@[simp] theorem loadByte_curI (b : Byte) (bs : List Byte) (s : State) : (loadByte b bs s).curI = s.curI := rfl
@[simp] theorem loadByte_setMask (b : Byte) (bs : List Byte) (s : State) : (loadByte b bs s).setMask = s.setMask := rfl
@[simp] theorem loadByte_clrMask (b : Byte) (bs : List Byte) (s : State) : (loadByte b bs s).clrMask = s.clrMask := rfl
@[simp] theorem loadByte_bf (b : Byte) (bs : List Byte) (s : State) : (loadByte b bs s).bf = s.bf := rfl
@[simp] theorem loadByte_fault (b : Byte) (bs : List Byte) (s : State) : (loadByte b bs s).fault = s.fault := rfl
@[simp] theorem loadByte_inited (b : Byte) (bs : List Byte) (s : State) : (loadByte b bs s).inited = s.inited := rfl
@[simp] theorem loadByte_polls (b : Byte) (bs : List Byte) (s : State) : (loadByte b bs s).polls = s.polls := rfl
@[simp] theorem loadByte_trace (b : Byte) (bs : List Byte) (s : State) : (loadByte b bs s).trace = s.trace := rfl
@[simp] theorem loadByte_timedOut (b : Byte) (bs : List Byte) (s : State) : (loadByte b bs s).timedOut = s.timedOut := rfl
@[simp] theorem loadByte_reports (b : Byte) (bs : List Byte) (s : State) : (loadByte b bs s).reports = s.reports := rfl
@[simp] theorem loadByte_port (b : Byte) (bs : List Byte) (s : State) : (loadByte b bs s).port = s.port := rfl
@[simp] theorem loadByte_samples (b : Byte) (bs : List Byte) (s : State) : (loadByte b bs s).samples = s.samples := rfl
@[simp] theorem loadByte_sampleAfter (b : Byte) (bs : List Byte) (s : State) : (loadByte b bs s).sampleAfter = s.sampleAfter := rfl
@[simp] theorem loadByte_cfgFails (b : Byte) (bs : List Byte) (s : State) : (loadByte b bs s).cfgFails = s.cfgFails := rfl
@[simp] theorem loadByte_draws (b : Byte) (bs : List Byte) (s : State) : (loadByte b bs s).draws = s.draws := rfl

/-! ### loadSend -/

@[simp] theorem loadSend_handle (f : Bool) (bs : List Byte) (s : State) : (loadSend f bs s).handle = s.handle := rfl
@[simp] theorem loadSend_params (f : Bool) (bs : List Byte) (s : State) : (loadSend f bs s).params = s.params := rfl
@[simp] theorem loadSend_pins (f : Bool) (bs : List Byte) (s : State) : (loadSend f bs s).pins = s.pins := rfl
@[simp] theorem loadSend_phase (f : Bool) (bs : List Byte) (s : State) : (loadSend f bs s).phase = s.phase := rfl
@[simp] theorem loadSend_cmd (f : Bool) (bs : List Byte) (s : State) : (loadSend f bs s).cmd = .send := rfl
@[simp] theorem loadSend_queue (f : Bool) (bs : List Byte) (s : State) : (loadSend f bs s).queue = bs := rfl
@[simp] theorem loadSend_curByte (f : Bool) (bs : List Byte) (s : State) : (loadSend f bs s).curByte = s.curByte := rfl
@[simp] theorem loadSend_curI (f : Bool) (bs : List Byte) (s : State) : (loadSend f bs s).curI = f := rfl
@[simp] theorem loadSend_setMask (f : Bool) (bs : List Byte) (s : State) : (loadSend f bs s).setMask = s.setMask := rfl
@[simp] theorem loadSend_clrMask (f : Bool) (bs : List Byte) (s : State) : (loadSend f bs s).clrMask = s.clrMask := rfl
@[simp] theorem loadSend_bf (f : Bool) (bs : List Byte) (s : State) : (loadSend f bs s).bf = s.bf := rfl
@[simp] theorem loadSend_fault (f : Bool) (bs : List Byte) (s : State) : (loadSend f bs s).fault = s.fault := rfl
@[simp] theorem loadSend_inited (f : Bool) (bs : List Byte) (s : State) : (loadSend f bs s).inited = s.inited := rfl
@[simp] theorem loadSend_polls (f : Bool) (bs : List Byte) (s : State) : (loadSend f bs s).polls = s.polls := rfl
@[simp] theorem loadSend_trace (f : Bool) (bs : List Byte) (s : State) : (loadSend f bs s).trace = s.trace := rfl
@[simp] theorem loadSend_timedOut (f : Bool) (bs : List Byte) (s : State) : (loadSend f bs s).timedOut = s.timedOut := rfl
@[simp] theorem loadSend_reports (f : Bool) (bs : List Byte) (s : State) : (loadSend f bs s).reports = s.reports := rfl
@[simp] theorem loadSend_port (f : Bool) (bs : List Byte) (s : State) : (loadSend f bs s).port = s.port := rfl
@[simp] theorem loadSend_samples (f : Bool) (bs : List Byte) (s : State) : (loadSend f bs s).samples = s.samples := rfl
@[simp] theorem loadSend_sampleAfter (f : Bool) (bs : List Byte) (s : State) : (loadSend f bs s).sampleAfter = s.sampleAfter := rfl
@[simp] theorem loadSend_cfgFails (f : Bool) (bs : List Byte) (s : State) : (loadSend f bs s).cfgFails = s.cfgFails := rfl
@[simp] theorem loadSend_draws (f : Bool) (bs : List Byte) (s : State) : (loadSend f bs s).draws = s.draws := rfl

/-! ### withSample -/

@[simp] theorem withSample_handle (v : Level) (n : Nat) (o : Bool) (s : State) : (s.withSample v n o).handle = s.handle := rfl
@[simp] theorem withSample_params (v : Level) (n : Nat) (o : Bool) (s : State) : (s.withSample v n o).params = s.params := rfl
@[simp] theorem withSample_pins (v : Level) (n : Nat) (o : Bool) (s : State) : (s.withSample v n o).pins = s.pins := rfl
@[simp] theorem withSample_phase (v : Level) (n : Nat) (o : Bool) (s : State) : (s.withSample v n o).phase = s.phase := rfl
@[simp] theorem withSample_cmd (v : Level) (n : Nat) (o : Bool) (s : State) : (s.withSample v n o).cmd = s.cmd := rfl
@[simp] theorem withSample_queue (v : Level) (n : Nat) (o : Bool) (s : State) : (s.withSample v n o).queue = s.queue := rfl
@[simp] theorem withSample_curByte (v : Level) (n : Nat) (o : Bool) (s : State) : (s.withSample v n o).curByte = s.curByte := rfl
@[simp] theorem withSample_curI (v : Level) (n : Nat) (o : Bool) (s : State) : (s.withSample v n o).curI = s.curI := rfl
@[simp] theorem withSample_setMask (v : Level) (n : Nat) (o : Bool) (s : State) : (s.withSample v n o).setMask = s.setMask := rfl
@[simp] theorem withSample_clrMask (v : Level) (n : Nat) (o : Bool) (s : State) : (s.withSample v n o).clrMask = s.clrMask := rfl
@[simp] theorem withSample_bf (v : Level) (n : Nat) (o : Bool) (s : State) : (s.withSample v n o).bf = v := rfl
@[simp] theorem withSample_fault (v : Level) (n : Nat) (o : Bool) (s : State) : (s.withSample v n o).fault = s.fault := rfl
@[simp] theorem withSample_inited (v : Level) (n : Nat) (o : Bool) (s : State) : (s.withSample v n o).inited = s.inited := rfl
@[simp] theorem withSample_polls (v : Level) (n : Nat) (o : Bool) (s : State) : (s.withSample v n o).polls = n := rfl
@[simp] theorem withSample_trace (v : Level) (n : Nat) (o : Bool) (s : State) : (s.withSample v n o).trace = s.trace := rfl
@[simp] theorem withSample_timedOut (v : Level) (n : Nat) (o : Bool) (s : State) : (s.withSample v n o).timedOut = o := rfl
@[simp] theorem withSample_reports (v : Level) (n : Nat) (o : Bool) (s : State) : (s.withSample v n o).reports = s.reports := rfl
@[simp] theorem withSample_port (v : Level) (n : Nat) (o : Bool) (s : State) : (s.withSample v n o).port = s.port := rfl
@[simp] theorem withSample_samples (v : Level) (n : Nat) (o : Bool) (s : State) : (s.withSample v n o).samples = s.samples := rfl
@[simp] theorem withSample_sampleAfter (v : Level) (n : Nat) (o : Bool) (s : State) : (s.withSample v n o).sampleAfter = s.sampleAfter := rfl
@[simp] theorem withSample_cfgFails (v : Level) (n : Nat) (o : Bool) (s : State) : (s.withSample v n o).cfgFails = s.cfgFails := rfl
@[simp] theorem withSample_draws (v : Level) (n : Nat) (o : Bool) (s : State) : (s.withSample v n o).draws = s.draws := rfl

/-! ### startInit -/

@[simp] theorem startInit_handle (s : State) : (startInit s).handle = s.handle := rfl
@[simp] theorem startInit_params (s : State) : (startInit s).params = s.params := rfl
@[simp] theorem startInit_pins (s : State) : (startInit s).pins = s.pins := rfl
@[simp] theorem startInit_phase (s : State) : (startInit s).phase = .config .cf0 := rfl
@[simp] theorem startInit_cmd (s : State) : (startInit s).cmd = .init := rfl
@[simp] theorem startInit_queue (s : State) : (startInit s).queue = s.queue := rfl
@[simp] theorem startInit_curByte (s : State) : (startInit s).curByte = s.curByte := rfl
@[simp] theorem startInit_curI (s : State) : (startInit s).curI = s.curI := rfl
@[simp] theorem startInit_setMask (s : State) : (startInit s).setMask = s.setMask := rfl
@[simp] theorem startInit_clrMask (s : State) : (startInit s).clrMask = s.clrMask := rfl
@[simp] theorem startInit_bf (s : State) : (startInit s).bf = s.bf := rfl
@[simp] theorem startInit_fault (s : State) : (startInit s).fault = s.fault := rfl
@[simp] theorem startInit_inited (s : State) : (startInit s).inited = s.inited := rfl
@[simp] theorem startInit_polls (s : State) : (startInit s).polls = s.polls := rfl
@[simp] theorem startInit_trace (s : State) : (startInit s).trace = s.trace := rfl
@[simp] theorem startInit_timedOut (s : State) : (startInit s).timedOut = s.timedOut := rfl
@[simp] theorem startInit_reports (s : State) : (startInit s).reports = s.reports := rfl
@[simp] theorem startInit_port (s : State) : (startInit s).port = s.port := rfl
@[simp] theorem startInit_samples (s : State) : (startInit s).samples = s.samples := rfl
@[simp] theorem startInit_sampleAfter (s : State) : (startInit s).sampleAfter = s.sampleAfter := rfl
@[simp] theorem startInit_cfgFails (s : State) : (startInit s).cfgFails = s.cfgFails := rfl
@[simp] theorem startInit_draws (s : State) : (startInit s).draws = s.draws := rfl

/-! ### startWaitReady -/

@[simp] theorem startWaitReady_handle (s : State) : (startWaitReady s).handle = s.handle := rfl
@[simp] theorem startWaitReady_params (s : State) : (startWaitReady s).params = s.params := rfl
@[simp] theorem startWaitReady_pins (s : State) : (startWaitReady s).pins = s.pins := rfl
@[simp] theorem startWaitReady_phase (s : State) : (startWaitReady s).phase = .waitBusy .wb0 := rfl
@[simp] theorem startWaitReady_cmd (s : State) : (startWaitReady s).cmd = .waitReady := rfl
@[simp] theorem startWaitReady_queue (s : State) : (startWaitReady s).queue = s.queue := rfl
@[simp] theorem startWaitReady_curByte (s : State) : (startWaitReady s).curByte = s.curByte := rfl
@[simp] theorem startWaitReady_curI (s : State) : (startWaitReady s).curI = s.curI := rfl
@[simp] theorem startWaitReady_setMask (s : State) : (startWaitReady s).setMask = s.setMask := rfl
@[simp] theorem startWaitReady_clrMask (s : State) : (startWaitReady s).clrMask = s.clrMask := rfl
@[simp] theorem startWaitReady_bf (s : State) : (startWaitReady s).bf = s.bf := rfl
@[simp] theorem startWaitReady_fault (s : State) : (startWaitReady s).fault = s.fault := rfl
@[simp] theorem startWaitReady_inited (s : State) : (startWaitReady s).inited = s.inited := rfl
@[simp] theorem startWaitReady_polls (s : State) : (startWaitReady s).polls = s.polls := rfl
@[simp] theorem startWaitReady_trace (s : State) : (startWaitReady s).trace = s.trace := rfl
@[simp] theorem startWaitReady_timedOut (s : State) : (startWaitReady s).timedOut = s.timedOut := rfl
@[simp] theorem startWaitReady_reports (s : State) : (startWaitReady s).reports = s.reports := rfl
@[simp] theorem startWaitReady_port (s : State) : (startWaitReady s).port = s.port := rfl
@[simp] theorem startWaitReady_samples (s : State) : (startWaitReady s).samples = s.samples := rfl
@[simp] theorem startWaitReady_sampleAfter (s : State) : (startWaitReady s).sampleAfter = s.sampleAfter := rfl
@[simp] theorem startWaitReady_cfgFails (s : State) : (startWaitReady s).cfgFails = s.cfgFails := rfl
@[simp] theorem startWaitReady_draws (s : State) : (startWaitReady s).draws = s.draws := rfl

/-! ### queueBringUp -/

@[simp] theorem queueBringUp_handle (s : State) : (queueBringUp s).handle = s.handle := rfl
@[simp] theorem queueBringUp_params (s : State) : (queueBringUp s).params = s.params := rfl
@[simp] theorem queueBringUp_pins (s : State) : (queueBringUp s).pins = s.pins := rfl
@[simp] theorem queueBringUp_phase (s : State) : (queueBringUp s).phase = .idle := rfl
@[simp] theorem queueBringUp_cmd (s : State) : (queueBringUp s).cmd = s.cmd := rfl
@[simp] theorem queueBringUp_queue (s : State) : (queueBringUp s).queue = bringUpBytes s.params s.handle.busWidth := rfl
@[simp] theorem queueBringUp_curByte (s : State) : (queueBringUp s).curByte = s.curByte := rfl
@[simp] theorem queueBringUp_curI (s : State) : (queueBringUp s).curI = true := rfl
@[simp] theorem queueBringUp_setMask (s : State) : (queueBringUp s).setMask = s.setMask := rfl
@[simp] theorem queueBringUp_clrMask (s : State) : (queueBringUp s).clrMask = s.clrMask := rfl
@[simp] theorem queueBringUp_bf (s : State) : (queueBringUp s).bf = s.bf := rfl
@[simp] theorem queueBringUp_fault (s : State) : (queueBringUp s).fault = s.fault := rfl
@[simp] theorem queueBringUp_inited (s : State) : (queueBringUp s).inited = s.inited := rfl
@[simp] theorem queueBringUp_polls (s : State) : (queueBringUp s).polls = s.polls := rfl
@[simp] theorem queueBringUp_trace (s : State) : (queueBringUp s).trace = s.trace := rfl
@[simp] theorem queueBringUp_timedOut (s : State) : (queueBringUp s).timedOut = s.timedOut := rfl
@[simp] theorem queueBringUp_reports (s : State) : (queueBringUp s).reports = s.reports := rfl
@[simp] theorem queueBringUp_port (s : State) : (queueBringUp s).port = s.port := rfl
@[simp] theorem queueBringUp_samples (s : State) : (queueBringUp s).samples = s.samples := rfl
@[simp] theorem queueBringUp_sampleAfter (s : State) : (queueBringUp s).sampleAfter = s.sampleAfter := rfl
@[simp] theorem queueBringUp_cfgFails (s : State) : (queueBringUp s).cfgFails = s.cfgFails := rfl
@[simp] theorem queueBringUp_draws (s : State) : (queueBringUp s).draws = s.draws := rfl

/-! ### tookConfigDraw -/

@[simp] theorem tookConfigDraw_handle (s : State) : s.tookConfigDraw.handle = s.handle := rfl
@[simp] theorem tookConfigDraw_params (s : State) : s.tookConfigDraw.params = s.params := rfl
@[simp] theorem tookConfigDraw_pins (s : State) : s.tookConfigDraw.pins = s.pins := rfl
@[simp] theorem tookConfigDraw_phase (s : State) : s.tookConfigDraw.phase = s.phase := rfl
@[simp] theorem tookConfigDraw_cmd (s : State) : s.tookConfigDraw.cmd = s.cmd := rfl
@[simp] theorem tookConfigDraw_queue (s : State) : s.tookConfigDraw.queue = s.queue := rfl
@[simp] theorem tookConfigDraw_curByte (s : State) : s.tookConfigDraw.curByte = s.curByte := rfl
@[simp] theorem tookConfigDraw_curI (s : State) : s.tookConfigDraw.curI = s.curI := rfl
@[simp] theorem tookConfigDraw_setMask (s : State) : s.tookConfigDraw.setMask = s.setMask := rfl
@[simp] theorem tookConfigDraw_clrMask (s : State) : s.tookConfigDraw.clrMask = s.clrMask := rfl
@[simp] theorem tookConfigDraw_bf (s : State) : s.tookConfigDraw.bf = s.bf := rfl
@[simp] theorem tookConfigDraw_fault (s : State) : s.tookConfigDraw.fault = s.fault := rfl
@[simp] theorem tookConfigDraw_inited (s : State) : s.tookConfigDraw.inited = s.inited := rfl
@[simp] theorem tookConfigDraw_polls (s : State) : s.tookConfigDraw.polls = s.polls := rfl
@[simp] theorem tookConfigDraw_trace (s : State) : s.tookConfigDraw.trace = s.trace := rfl
@[simp] theorem tookConfigDraw_timedOut (s : State) : s.tookConfigDraw.timedOut = s.timedOut := rfl
@[simp] theorem tookConfigDraw_reports (s : State) : s.tookConfigDraw.reports = s.reports := rfl
@[simp] theorem tookConfigDraw_port (s : State) : s.tookConfigDraw.port = s.port := rfl
@[simp] theorem tookConfigDraw_samples (s : State) : s.tookConfigDraw.samples = s.samples := rfl
@[simp] theorem tookConfigDraw_sampleAfter (s : State) : s.tookConfigDraw.sampleAfter = s.sampleAfter := rfl
@[simp] theorem tookConfigDraw_cfgFails (s : State) : s.tookConfigDraw.cfgFails = s.cfgFails.tail := rfl
@[simp] theorem tookConfigDraw_draws (s : State) : s.tookConfigDraw.draws = s.draws + 1 := rfl

/-! ### tookLevelDraw -/

@[simp] theorem tookLevelDraw_handle (s : State) : s.tookLevelDraw.handle = s.handle := rfl
@[simp] theorem tookLevelDraw_params (s : State) : s.tookLevelDraw.params = s.params := rfl
@[simp] theorem tookLevelDraw_pins (s : State) : s.tookLevelDraw.pins = s.pins := rfl
@[simp] theorem tookLevelDraw_phase (s : State) : s.tookLevelDraw.phase = s.phase := rfl
@[simp] theorem tookLevelDraw_cmd (s : State) : s.tookLevelDraw.cmd = s.cmd := rfl
@[simp] theorem tookLevelDraw_queue (s : State) : s.tookLevelDraw.queue = s.queue := rfl
@[simp] theorem tookLevelDraw_curByte (s : State) : s.tookLevelDraw.curByte = s.curByte := rfl
@[simp] theorem tookLevelDraw_curI (s : State) : s.tookLevelDraw.curI = s.curI := rfl
@[simp] theorem tookLevelDraw_setMask (s : State) : s.tookLevelDraw.setMask = s.setMask := rfl
@[simp] theorem tookLevelDraw_clrMask (s : State) : s.tookLevelDraw.clrMask = s.clrMask := rfl
@[simp] theorem tookLevelDraw_bf (s : State) : s.tookLevelDraw.bf = s.bf := rfl
@[simp] theorem tookLevelDraw_fault (s : State) : s.tookLevelDraw.fault = s.fault := rfl
@[simp] theorem tookLevelDraw_inited (s : State) : s.tookLevelDraw.inited = s.inited := rfl
@[simp] theorem tookLevelDraw_polls (s : State) : s.tookLevelDraw.polls = s.polls := rfl
@[simp] theorem tookLevelDraw_trace (s : State) : s.tookLevelDraw.trace = s.trace := rfl
@[simp] theorem tookLevelDraw_timedOut (s : State) : s.tookLevelDraw.timedOut = s.timedOut := rfl
@[simp] theorem tookLevelDraw_reports (s : State) : s.tookLevelDraw.reports = s.reports := rfl
@[simp] theorem tookLevelDraw_port (s : State) : s.tookLevelDraw.port = s.port := rfl
@[simp] theorem tookLevelDraw_samples (s : State) : s.tookLevelDraw.samples = s.samples.tail := rfl
@[simp] theorem tookLevelDraw_sampleAfter (s : State) : s.tookLevelDraw.sampleAfter = s.sampleAfter := rfl
@[simp] theorem tookLevelDraw_cfgFails (s : State) : s.tookLevelDraw.cfgFails = s.cfgFails := rfl
@[simp] theorem tookLevelDraw_draws (s : State) : s.tookLevelDraw.draws = s.draws + 1 := rfl

/-! ### raiseConfigurationError -/

@[simp] theorem raiseConfigurationError_handle (c : ErrorCode) (s : State) : (raiseConfigurationError c s).handle = s.handle := rfl
@[simp] theorem raiseConfigurationError_params (c : ErrorCode) (s : State) : (raiseConfigurationError c s).params = s.params := rfl
@[simp] theorem raiseConfigurationError_pins (c : ErrorCode) (s : State) : (raiseConfigurationError c s).pins = s.pins := rfl
@[simp] theorem raiseConfigurationError_phase (c : ErrorCode) (s : State) : (raiseConfigurationError c s).phase = .fault := rfl
@[simp] theorem raiseConfigurationError_cmd (c : ErrorCode) (s : State) : (raiseConfigurationError c s).cmd = .none := rfl
@[simp] theorem raiseConfigurationError_queue (c : ErrorCode) (s : State) : (raiseConfigurationError c s).queue = [] := rfl
@[simp] theorem raiseConfigurationError_curByte (c : ErrorCode) (s : State) : (raiseConfigurationError c s).curByte = s.curByte := rfl
@[simp] theorem raiseConfigurationError_curI (c : ErrorCode) (s : State) : (raiseConfigurationError c s).curI = s.curI := rfl
@[simp] theorem raiseConfigurationError_setMask (c : ErrorCode) (s : State) : (raiseConfigurationError c s).setMask = s.setMask := rfl
@[simp] theorem raiseConfigurationError_clrMask (c : ErrorCode) (s : State) : (raiseConfigurationError c s).clrMask = s.clrMask := rfl
@[simp] theorem raiseConfigurationError_bf (c : ErrorCode) (s : State) : (raiseConfigurationError c s).bf = s.bf := rfl
@[simp] theorem raiseConfigurationError_fault (c : ErrorCode) (s : State) : (raiseConfigurationError c s).fault = some c := rfl
@[simp] theorem raiseConfigurationError_inited (c : ErrorCode) (s : State) : (raiseConfigurationError c s).inited = s.inited := rfl
@[simp] theorem raiseConfigurationError_polls (c : ErrorCode) (s : State) : (raiseConfigurationError c s).polls = s.polls := rfl
@[simp] theorem raiseConfigurationError_trace (c : ErrorCode) (s : State) : (raiseConfigurationError c s).trace = s.trace := rfl
@[simp] theorem raiseConfigurationError_timedOut (c : ErrorCode) (s : State) : (raiseConfigurationError c s).timedOut = s.timedOut := rfl
@[simp] theorem raiseConfigurationError_reports (c : ErrorCode) (s : State) : (raiseConfigurationError c s).reports = s.reports ++ [c] := rfl
@[simp] theorem raiseConfigurationError_port (c : ErrorCode) (s : State) : (raiseConfigurationError c s).port = s.port := rfl
@[simp] theorem raiseConfigurationError_samples (c : ErrorCode) (s : State) : (raiseConfigurationError c s).samples = s.samples := rfl
@[simp] theorem raiseConfigurationError_sampleAfter (c : ErrorCode) (s : State) : (raiseConfigurationError c s).sampleAfter = s.sampleAfter := rfl
@[simp] theorem raiseConfigurationError_cfgFails (c : ErrorCode) (s : State) : (raiseConfigurationError c s).cfgFails = s.cfgFails := rfl
@[simp] theorem raiseConfigurationError_draws (c : ErrorCode) (s : State) : (raiseConfigurationError c s).draws = s.draws := rfl
@[simp] theorem raiseConfigurationError_faultNumber (c : ErrorCode) (s : State) :
    (raiseConfigurationError c s).faultNumber = some c.number := rfl
@[simp] theorem raiseConfigurationError_reportedNumbers (c : ErrorCode) (s : State) :
    (raiseConfigurationError c s).reportedNumbers = s.reportedNumbers ++ [c.number] := by
  simp [State.reportedNumbers]

/-! ### raiseTimeoutError -/

@[simp] theorem raiseTimeoutError_handle (s : State) : (raiseTimeoutError s).handle = s.handle := rfl
@[simp] theorem raiseTimeoutError_params (s : State) : (raiseTimeoutError s).params = s.params := rfl
@[simp] theorem raiseTimeoutError_pins (s : State) : (raiseTimeoutError s).pins = s.pins := rfl
@[simp] theorem raiseTimeoutError_phase (s : State) : (raiseTimeoutError s).phase = .idle := rfl
@[simp] theorem raiseTimeoutError_cmd (s : State) : (raiseTimeoutError s).cmd = .none := rfl
@[simp] theorem raiseTimeoutError_queue (s : State) : (raiseTimeoutError s).queue = [] := rfl
@[simp] theorem raiseTimeoutError_curByte (s : State) : (raiseTimeoutError s).curByte = s.curByte := rfl
@[simp] theorem raiseTimeoutError_curI (s : State) : (raiseTimeoutError s).curI = s.curI := rfl
@[simp] theorem raiseTimeoutError_setMask (s : State) : (raiseTimeoutError s).setMask = s.setMask := rfl
@[simp] theorem raiseTimeoutError_clrMask (s : State) : (raiseTimeoutError s).clrMask = s.clrMask := rfl
@[simp] theorem raiseTimeoutError_bf (s : State) : (raiseTimeoutError s).bf = s.bf := rfl
@[simp] theorem raiseTimeoutError_fault (s : State) : (raiseTimeoutError s).fault = s.fault := rfl
@[simp] theorem raiseTimeoutError_inited (s : State) : (raiseTimeoutError s).inited = s.inited := rfl
@[simp] theorem raiseTimeoutError_polls (s : State) : (raiseTimeoutError s).polls = s.polls := rfl
@[simp] theorem raiseTimeoutError_trace (s : State) : (raiseTimeoutError s).trace = s.trace := rfl
@[simp] theorem raiseTimeoutError_timedOut (s : State) : (raiseTimeoutError s).timedOut = false := rfl
@[simp] theorem raiseTimeoutError_reports (s : State) : (raiseTimeoutError s).reports = s.reports ++ [.timeout] := rfl
@[simp] theorem raiseTimeoutError_port (s : State) : (raiseTimeoutError s).port = s.port := rfl
@[simp] theorem raiseTimeoutError_samples (s : State) : (raiseTimeoutError s).samples = s.samples := rfl
@[simp] theorem raiseTimeoutError_sampleAfter (s : State) : (raiseTimeoutError s).sampleAfter = s.sampleAfter := rfl
@[simp] theorem raiseTimeoutError_cfgFails (s : State) : (raiseTimeoutError s).cfgFails = s.cfgFails := rfl
@[simp] theorem raiseTimeoutError_draws (s : State) : (raiseTimeoutError s).draws = s.draws := rfl
@[simp] theorem raiseTimeoutError_faultNumber (s : State) : (raiseTimeoutError s).faultNumber = s.faultNumber := rfl
@[simp] theorem raiseTimeoutError_reportedNumbers (s : State) :
    (raiseTimeoutError s).reportedNumbers = s.reportedNumbers ++ [3] := by
  simp [State.reportedNumbers, ErrorCode.number]

/-! ### afterConfig -/

@[simp] theorem afterConfig_handle (P : PinSet) (d : Dir) (u : Pull) (i : Intr) (s : State) : (s.afterConfig P d u i).handle = s.handle := rfl
@[simp] theorem afterConfig_params (P : PinSet) (d : Dir) (u : Pull) (i : Intr) (s : State) : (s.afterConfig P d u i).params = s.params := rfl
@[simp] theorem afterConfig_pins (P : PinSet) (d : Dir) (u : Pull) (i : Intr) (s : State) : (s.afterConfig P d u i).pins = updatePins (configurePin P d u i) s.pins := rfl
@[simp] theorem afterConfig_phase (P : PinSet) (d : Dir) (u : Pull) (i : Intr) (s : State) : (s.afterConfig P d u i).phase = s.phase := rfl
@[simp] theorem afterConfig_cmd (P : PinSet) (d : Dir) (u : Pull) (i : Intr) (s : State) : (s.afterConfig P d u i).cmd = s.cmd := rfl
@[simp] theorem afterConfig_queue (P : PinSet) (d : Dir) (u : Pull) (i : Intr) (s : State) : (s.afterConfig P d u i).queue = s.queue := rfl
@[simp] theorem afterConfig_curByte (P : PinSet) (d : Dir) (u : Pull) (i : Intr) (s : State) : (s.afterConfig P d u i).curByte = s.curByte := rfl
@[simp] theorem afterConfig_curI (P : PinSet) (d : Dir) (u : Pull) (i : Intr) (s : State) : (s.afterConfig P d u i).curI = s.curI := rfl
@[simp] theorem afterConfig_setMask (P : PinSet) (d : Dir) (u : Pull) (i : Intr) (s : State) : (s.afterConfig P d u i).setMask = s.setMask := rfl
@[simp] theorem afterConfig_clrMask (P : PinSet) (d : Dir) (u : Pull) (i : Intr) (s : State) : (s.afterConfig P d u i).clrMask = s.clrMask := rfl
@[simp] theorem afterConfig_bf (P : PinSet) (d : Dir) (u : Pull) (i : Intr) (s : State) : (s.afterConfig P d u i).bf = s.bf := rfl
@[simp] theorem afterConfig_fault (P : PinSet) (d : Dir) (u : Pull) (i : Intr) (s : State) : (s.afterConfig P d u i).fault = s.fault := rfl
@[simp] theorem afterConfig_inited (P : PinSet) (d : Dir) (u : Pull) (i : Intr) (s : State) : (s.afterConfig P d u i).inited = s.inited := rfl
@[simp] theorem afterConfig_polls (P : PinSet) (d : Dir) (u : Pull) (i : Intr) (s : State) : (s.afterConfig P d u i).polls = s.polls := rfl
@[simp] theorem afterConfig_trace (P : PinSet) (d : Dir) (u : Pull) (i : Intr) (s : State) : (s.afterConfig P d u i).trace = s.trace ++ [.cfg P d] := rfl
@[simp] theorem afterConfig_timedOut (P : PinSet) (d : Dir) (u : Pull) (i : Intr) (s : State) : (s.afterConfig P d u i).timedOut = s.timedOut := rfl
@[simp] theorem afterConfig_reports (P : PinSet) (d : Dir) (u : Pull) (i : Intr) (s : State) : (s.afterConfig P d u i).reports = s.reports := rfl
@[simp] theorem afterConfig_port (P : PinSet) (d : Dir) (u : Pull) (i : Intr) (s : State) : (s.afterConfig P d u i).port = s.port := rfl
@[simp] theorem afterConfig_samples (P : PinSet) (d : Dir) (u : Pull) (i : Intr) (s : State) : (s.afterConfig P d u i).samples = s.samples := rfl
@[simp] theorem afterConfig_sampleAfter (P : PinSet) (d : Dir) (u : Pull) (i : Intr) (s : State) : (s.afterConfig P d u i).sampleAfter = s.sampleAfter := rfl
@[simp] theorem afterConfig_cfgFails (P : PinSet) (d : Dir) (u : Pull) (i : Intr) (s : State) : (s.afterConfig P d u i).cfgFails = s.cfgFails.tail := rfl
@[simp] theorem afterConfig_draws (P : PinSet) (d : Dir) (u : Pull) (i : Intr) (s : State) : (s.afterConfig P d u i).draws = s.draws + 1 := rfl

/-! ### afterFailedConfig -/

@[simp] theorem afterFailedConfig_handle (P : PinSet) (s : State) : (s.afterFailedConfig P).handle = s.handle := rfl
@[simp] theorem afterFailedConfig_params (P : PinSet) (s : State) : (s.afterFailedConfig P).params = s.params := rfl
@[simp] theorem afterFailedConfig_pins (P : PinSet) (s : State) : (s.afterFailedConfig P).pins = updatePins (scramblePin P s.draws) s.pins := rfl
@[simp] theorem afterFailedConfig_phase (P : PinSet) (s : State) : (s.afterFailedConfig P).phase = .fault := rfl
@[simp] theorem afterFailedConfig_cmd (P : PinSet) (s : State) : (s.afterFailedConfig P).cmd = .none := rfl
@[simp] theorem afterFailedConfig_queue (P : PinSet) (s : State) : (s.afterFailedConfig P).queue = [] := rfl
@[simp] theorem afterFailedConfig_curByte (P : PinSet) (s : State) : (s.afterFailedConfig P).curByte = s.curByte := rfl
@[simp] theorem afterFailedConfig_curI (P : PinSet) (s : State) : (s.afterFailedConfig P).curI = s.curI := rfl
@[simp] theorem afterFailedConfig_setMask (P : PinSet) (s : State) : (s.afterFailedConfig P).setMask = s.setMask := rfl
@[simp] theorem afterFailedConfig_clrMask (P : PinSet) (s : State) : (s.afterFailedConfig P).clrMask = s.clrMask := rfl
@[simp] theorem afterFailedConfig_bf (P : PinSet) (s : State) : (s.afterFailedConfig P).bf = s.bf := rfl
@[simp] theorem afterFailedConfig_fault (P : PinSet) (s : State) : (s.afterFailedConfig P).fault = some .gpioConfig := rfl
@[simp] theorem afterFailedConfig_inited (P : PinSet) (s : State) : (s.afterFailedConfig P).inited = s.inited := rfl
@[simp] theorem afterFailedConfig_polls (P : PinSet) (s : State) : (s.afterFailedConfig P).polls = s.polls := rfl
@[simp] theorem afterFailedConfig_trace (P : PinSet) (s : State) : (s.afterFailedConfig P).trace = s.trace := rfl
@[simp] theorem afterFailedConfig_timedOut (P : PinSet) (s : State) : (s.afterFailedConfig P).timedOut = s.timedOut := rfl
@[simp] theorem afterFailedConfig_reports (P : PinSet) (s : State) : (s.afterFailedConfig P).reports = s.reports ++ [.gpioConfig] := rfl
@[simp] theorem afterFailedConfig_port (P : PinSet) (s : State) : (s.afterFailedConfig P).port = s.port := rfl
@[simp] theorem afterFailedConfig_samples (P : PinSet) (s : State) : (s.afterFailedConfig P).samples = s.samples := rfl
@[simp] theorem afterFailedConfig_sampleAfter (P : PinSet) (s : State) : (s.afterFailedConfig P).sampleAfter = s.sampleAfter := rfl
@[simp] theorem afterFailedConfig_cfgFails (P : PinSet) (s : State) : (s.afterFailedConfig P).cfgFails = s.cfgFails.tail := rfl
@[simp] theorem afterFailedConfig_draws (P : PinSet) (s : State) : (s.afterFailedConfig P).draws = s.draws + 1 := rfl

/-! ### afterWrite -/

@[simp] theorem afterWrite_handle (p : PinId) (v : Level) (s : State) : (s.afterWrite p v).handle = s.handle := rfl
@[simp] theorem afterWrite_params (p : PinId) (v : Level) (s : State) : (s.afterWrite p v).params = s.params := rfl
@[simp] theorem afterWrite_pins (p : PinId) (v : Level) (s : State) : (s.afterWrite p v).pins = updatePins (latchPin p v) s.pins := rfl
@[simp] theorem afterWrite_phase (p : PinId) (v : Level) (s : State) : (s.afterWrite p v).phase = s.phase := rfl
@[simp] theorem afterWrite_cmd (p : PinId) (v : Level) (s : State) : (s.afterWrite p v).cmd = s.cmd := rfl
@[simp] theorem afterWrite_queue (p : PinId) (v : Level) (s : State) : (s.afterWrite p v).queue = s.queue := rfl
@[simp] theorem afterWrite_curByte (p : PinId) (v : Level) (s : State) : (s.afterWrite p v).curByte = s.curByte := rfl
@[simp] theorem afterWrite_curI (p : PinId) (v : Level) (s : State) : (s.afterWrite p v).curI = s.curI := rfl
@[simp] theorem afterWrite_setMask (p : PinId) (v : Level) (s : State) : (s.afterWrite p v).setMask = s.setMask := rfl
@[simp] theorem afterWrite_clrMask (p : PinId) (v : Level) (s : State) : (s.afterWrite p v).clrMask = s.clrMask := rfl
@[simp] theorem afterWrite_bf (p : PinId) (v : Level) (s : State) : (s.afterWrite p v).bf = s.bf := rfl
@[simp] theorem afterWrite_fault (p : PinId) (v : Level) (s : State) : (s.afterWrite p v).fault = s.fault := rfl
@[simp] theorem afterWrite_inited (p : PinId) (v : Level) (s : State) : (s.afterWrite p v).inited = s.inited := rfl
@[simp] theorem afterWrite_polls (p : PinId) (v : Level) (s : State) : (s.afterWrite p v).polls = s.polls := rfl
@[simp] theorem afterWrite_trace (p : PinId) (v : Level) (s : State) : (s.afterWrite p v).trace = s.trace ++ [.w p v] := rfl
@[simp] theorem afterWrite_timedOut (p : PinId) (v : Level) (s : State) : (s.afterWrite p v).timedOut = s.timedOut := rfl
@[simp] theorem afterWrite_reports (p : PinId) (v : Level) (s : State) : (s.afterWrite p v).reports = s.reports := rfl
@[simp] theorem afterWrite_port (p : PinId) (v : Level) (s : State) : (s.afterWrite p v).port = s.port := rfl
@[simp] theorem afterWrite_samples (p : PinId) (v : Level) (s : State) : (s.afterWrite p v).samples = s.samples := rfl
@[simp] theorem afterWrite_sampleAfter (p : PinId) (v : Level) (s : State) : (s.afterWrite p v).sampleAfter = s.sampleAfter := rfl
@[simp] theorem afterWrite_cfgFails (p : PinId) (v : Level) (s : State) : (s.afterWrite p v).cfgFails = s.cfgFails := rfl
@[simp] theorem afterWrite_draws (p : PinId) (v : Level) (s : State) : (s.afterWrite p v).draws = s.draws := rfl

/-! ### afterSetClear -/

@[simp] theorem afterSetClear_handle (S C : PinSet) (s : State) : (s.afterSetClear S C).handle = s.handle := rfl
@[simp] theorem afterSetClear_params (S C : PinSet) (s : State) : (s.afterSetClear S C).params = s.params := rfl
@[simp] theorem afterSetClear_pins (S C : PinSet) (s : State) : (s.afterSetClear S C).pins = updatePins (latchSets S C) s.pins := rfl
@[simp] theorem afterSetClear_phase (S C : PinSet) (s : State) : (s.afterSetClear S C).phase = s.phase := rfl
@[simp] theorem afterSetClear_cmd (S C : PinSet) (s : State) : (s.afterSetClear S C).cmd = s.cmd := rfl
@[simp] theorem afterSetClear_queue (S C : PinSet) (s : State) : (s.afterSetClear S C).queue = s.queue := rfl
@[simp] theorem afterSetClear_curByte (S C : PinSet) (s : State) : (s.afterSetClear S C).curByte = s.curByte := rfl
@[simp] theorem afterSetClear_curI (S C : PinSet) (s : State) : (s.afterSetClear S C).curI = s.curI := rfl
@[simp] theorem afterSetClear_setMask (S C : PinSet) (s : State) : (s.afterSetClear S C).setMask = s.setMask := rfl
@[simp] theorem afterSetClear_clrMask (S C : PinSet) (s : State) : (s.afterSetClear S C).clrMask = s.clrMask := rfl
@[simp] theorem afterSetClear_bf (S C : PinSet) (s : State) : (s.afterSetClear S C).bf = s.bf := rfl
@[simp] theorem afterSetClear_fault (S C : PinSet) (s : State) : (s.afterSetClear S C).fault = s.fault := rfl
@[simp] theorem afterSetClear_inited (S C : PinSet) (s : State) : (s.afterSetClear S C).inited = s.inited := rfl
@[simp] theorem afterSetClear_polls (S C : PinSet) (s : State) : (s.afterSetClear S C).polls = s.polls := rfl
@[simp] theorem afterSetClear_trace (S C : PinSet) (s : State) : (s.afterSetClear S C).trace = s.trace ++ [.sc S C] := rfl
@[simp] theorem afterSetClear_timedOut (S C : PinSet) (s : State) : (s.afterSetClear S C).timedOut = s.timedOut := rfl
@[simp] theorem afterSetClear_reports (S C : PinSet) (s : State) : (s.afterSetClear S C).reports = s.reports := rfl
@[simp] theorem afterSetClear_port (S C : PinSet) (s : State) : (s.afterSetClear S C).port = s.port := rfl
@[simp] theorem afterSetClear_samples (S C : PinSet) (s : State) : (s.afterSetClear S C).samples = s.samples := rfl
@[simp] theorem afterSetClear_sampleAfter (S C : PinSet) (s : State) : (s.afterSetClear S C).sampleAfter = s.sampleAfter := rfl
@[simp] theorem afterSetClear_cfgFails (S C : PinSet) (s : State) : (s.afterSetClear S C).cfgFails = s.cfgFails := rfl
@[simp] theorem afterSetClear_draws (S C : PinSet) (s : State) : (s.afterSetClear S C).draws = s.draws := rfl

/-! ### afterRead -/

@[simp] theorem afterRead_handle (p : PinId) (s : State) : (s.afterRead p).handle = s.handle := rfl
@[simp] theorem afterRead_params (p : PinId) (s : State) : (s.afterRead p).params = s.params := rfl
@[simp] theorem afterRead_pins (p : PinId) (s : State) : (s.afterRead p).pins = s.pins := rfl
@[simp] theorem afterRead_phase (p : PinId) (s : State) : (s.afterRead p).phase = s.phase := rfl
@[simp] theorem afterRead_cmd (p : PinId) (s : State) : (s.afterRead p).cmd = s.cmd := rfl
@[simp] theorem afterRead_queue (p : PinId) (s : State) : (s.afterRead p).queue = s.queue := rfl
@[simp] theorem afterRead_curByte (p : PinId) (s : State) : (s.afterRead p).curByte = s.curByte := rfl
@[simp] theorem afterRead_curI (p : PinId) (s : State) : (s.afterRead p).curI = s.curI := rfl
@[simp] theorem afterRead_setMask (p : PinId) (s : State) : (s.afterRead p).setMask = s.setMask := rfl
@[simp] theorem afterRead_clrMask (p : PinId) (s : State) : (s.afterRead p).clrMask = s.clrMask := rfl
@[simp] theorem afterRead_bf (p : PinId) (s : State) : (s.afterRead p).bf = s.bf := rfl
@[simp] theorem afterRead_fault (p : PinId) (s : State) : (s.afterRead p).fault = s.fault := rfl
@[simp] theorem afterRead_inited (p : PinId) (s : State) : (s.afterRead p).inited = s.inited := rfl
@[simp] theorem afterRead_polls (p : PinId) (s : State) : (s.afterRead p).polls = s.polls := rfl
@[simp] theorem afterRead_trace (p : PinId) (s : State) : (s.afterRead p).trace = s.trace ++ [.r p (s.nextLevel p)] := rfl
@[simp] theorem afterRead_timedOut (p : PinId) (s : State) : (s.afterRead p).timedOut = s.timedOut := rfl
@[simp] theorem afterRead_reports (p : PinId) (s : State) : (s.afterRead p).reports = s.reports := rfl
@[simp] theorem afterRead_port (p : PinId) (s : State) : (s.afterRead p).port = s.port := rfl
@[simp] theorem afterRead_samples (p : PinId) (s : State) : (s.afterRead p).samples = s.samples.tail := rfl
@[simp] theorem afterRead_sampleAfter (p : PinId) (s : State) : (s.afterRead p).sampleAfter = s.sampleAfter := rfl
@[simp] theorem afterRead_cfgFails (p : PinId) (s : State) : (s.afterRead p).cfgFails = s.cfgFails := rfl
@[simp] theorem afterRead_draws (p : PinId) (s : State) : (s.afterRead p).draws = s.draws + 1 := rfl

/-! ### completeCommand -/

@[simp] theorem completeCommand_handle (s : State) : (completeCommand s).handle = s.handle := rfl
@[simp] theorem completeCommand_params (s : State) : (completeCommand s).params = s.params := rfl
@[simp] theorem completeCommand_pins (s : State) : (completeCommand s).pins = s.pins := rfl
@[simp] theorem completeCommand_phase (s : State) : (completeCommand s).phase = .idle := rfl
@[simp] theorem completeCommand_cmd (s : State) : (completeCommand s).cmd = .none := rfl
@[simp] theorem completeCommand_queue (s : State) : (completeCommand s).queue = s.queue := rfl
@[simp] theorem completeCommand_curByte (s : State) : (completeCommand s).curByte = s.curByte := rfl
@[simp] theorem completeCommand_curI (s : State) : (completeCommand s).curI = s.curI := rfl
@[simp] theorem completeCommand_setMask (s : State) : (completeCommand s).setMask = s.setMask := rfl
@[simp] theorem completeCommand_clrMask (s : State) : (completeCommand s).clrMask = s.clrMask := rfl
@[simp] theorem completeCommand_bf (s : State) : (completeCommand s).bf = s.bf := rfl
@[simp] theorem completeCommand_fault (s : State) : (completeCommand s).fault = s.fault := rfl
@[simp] theorem completeCommand_inited (s : State) : (completeCommand s).inited = initedAfter s.cmd s.inited := rfl
@[simp] theorem completeCommand_polls (s : State) : (completeCommand s).polls = s.polls := rfl
@[simp] theorem completeCommand_trace (s : State) : (completeCommand s).trace = s.trace := rfl
@[simp] theorem completeCommand_timedOut (s : State) : (completeCommand s).timedOut = s.timedOut := rfl
@[simp] theorem completeCommand_reports (s : State) : (completeCommand s).reports = s.reports := rfl
@[simp] theorem completeCommand_port (s : State) : (completeCommand s).port = s.port := rfl
@[simp] theorem completeCommand_samples (s : State) : (completeCommand s).samples = s.samples := rfl
@[simp] theorem completeCommand_sampleAfter (s : State) : (completeCommand s).sampleAfter = s.sampleAfter := rfl
@[simp] theorem completeCommand_cfgFails (s : State) : (completeCommand s).cfgFails = s.cfgFails := rfl
@[simp] theorem completeCommand_draws (s : State) : (completeCommand s).draws = s.draws := rfl

/-! ### beginAddressPhase -/

@[simp] theorem beginAddressPhase_handle (s : State) : (beginAddressPhase s).handle = s.handle := rfl
@[simp] theorem beginAddressPhase_params (s : State) : (beginAddressPhase s).params = s.params := rfl
@[simp] theorem beginAddressPhase_pins (s : State) : (beginAddressPhase s).pins = s.pins := rfl
@[simp] theorem beginAddressPhase_phase (s : State) : (beginAddressPhase s).phase = .addressPhase .ap0 := rfl
@[simp] theorem beginAddressPhase_cmd (s : State) : (beginAddressPhase s).cmd = s.cmd := rfl
@[simp] theorem beginAddressPhase_queue (s : State) : (beginAddressPhase s).queue = s.queue := rfl
@[simp] theorem beginAddressPhase_curByte (s : State) : (beginAddressPhase s).curByte = s.curByte := rfl
@[simp] theorem beginAddressPhase_curI (s : State) : (beginAddressPhase s).curI = s.curI := rfl
@[simp] theorem beginAddressPhase_setMask (s : State) : (beginAddressPhase s).setMask = setMaskOf s.handle s.curByte := rfl
@[simp] theorem beginAddressPhase_clrMask (s : State) : (beginAddressPhase s).clrMask = clrMaskOf s.handle s.curByte := rfl
@[simp] theorem beginAddressPhase_bf (s : State) : (beginAddressPhase s).bf = s.bf := rfl
@[simp] theorem beginAddressPhase_fault (s : State) : (beginAddressPhase s).fault = s.fault := rfl
@[simp] theorem beginAddressPhase_inited (s : State) : (beginAddressPhase s).inited = s.inited := rfl
@[simp] theorem beginAddressPhase_polls (s : State) : (beginAddressPhase s).polls = s.polls := rfl
@[simp] theorem beginAddressPhase_trace (s : State) : (beginAddressPhase s).trace = s.trace := rfl
@[simp] theorem beginAddressPhase_timedOut (s : State) : (beginAddressPhase s).timedOut = s.timedOut := rfl
@[simp] theorem beginAddressPhase_reports (s : State) : (beginAddressPhase s).reports = s.reports := rfl
@[simp] theorem beginAddressPhase_port (s : State) : (beginAddressPhase s).port = s.port := rfl
@[simp] theorem beginAddressPhase_samples (s : State) : (beginAddressPhase s).samples = s.samples := rfl
@[simp] theorem beginAddressPhase_sampleAfter (s : State) : (beginAddressPhase s).sampleAfter = s.sampleAfter := rfl
@[simp] theorem beginAddressPhase_cfgFails (s : State) : (beginAddressPhase s).cfgFails = s.cfgFails := rfl
@[simp] theorem beginAddressPhase_draws (s : State) : (beginAddressPhase s).draws = s.draws := rfl

/-! ### takeSample -/

@[simp] theorem takeSample_handle (v : Level) (s : State) : (takeSample v s).handle = s.handle := rfl
@[simp] theorem takeSample_params (v : Level) (s : State) : (takeSample v s).params = s.params := rfl
@[simp] theorem takeSample_pins (v : Level) (s : State) : (takeSample v s).pins = s.pins := rfl
@[simp] theorem takeSample_phase (v : Level) (s : State) : (takeSample v s).phase = if v = true ∧ sampleTimesOut v s = false then .waitBusy .wb4 else .waitBusy .wb5 := rfl
@[simp] theorem takeSample_cmd (v : Level) (s : State) : (takeSample v s).cmd = s.cmd := rfl
@[simp] theorem takeSample_queue (v : Level) (s : State) : (takeSample v s).queue = s.queue := rfl
@[simp] theorem takeSample_curByte (v : Level) (s : State) : (takeSample v s).curByte = s.curByte := rfl
@[simp] theorem takeSample_curI (v : Level) (s : State) : (takeSample v s).curI = s.curI := rfl
@[simp] theorem takeSample_setMask (v : Level) (s : State) : (takeSample v s).setMask = s.setMask := rfl
@[simp] theorem takeSample_clrMask (v : Level) (s : State) : (takeSample v s).clrMask = s.clrMask := rfl
@[simp] theorem takeSample_bf (v : Level) (s : State) : (takeSample v s).bf = v := rfl
@[simp] theorem takeSample_fault (v : Level) (s : State) : (takeSample v s).fault = s.fault := rfl
@[simp] theorem takeSample_inited (v : Level) (s : State) : (takeSample v s).inited = s.inited := rfl
@[simp] theorem takeSample_polls (v : Level) (s : State) : (takeSample v s).polls = pollsAfterSample s := rfl
@[simp] theorem takeSample_trace (v : Level) (s : State) : (takeSample v s).trace = s.trace := rfl
@[simp] theorem takeSample_timedOut (v : Level) (s : State) : (takeSample v s).timedOut = sampleTimesOut v s := rfl
@[simp] theorem takeSample_reports (v : Level) (s : State) : (takeSample v s).reports = s.reports := rfl
@[simp] theorem takeSample_port (v : Level) (s : State) : (takeSample v s).port = s.port := rfl
@[simp] theorem takeSample_samples (v : Level) (s : State) : (takeSample v s).samples = s.samples := rfl
@[simp] theorem takeSample_sampleAfter (v : Level) (s : State) : (takeSample v s).sampleAfter = s.sampleAfter := rfl
@[simp] theorem takeSample_cfgFails (v : Level) (s : State) : (takeSample v s).cfgFails = s.cfgFails := rfl
@[simp] theorem takeSample_draws (v : Level) (s : State) : (takeSample v s).draws = s.draws := rfl

/-! ### clearPolls -/

@[simp] theorem clearPolls_handle (s : State) : (clearPolls s).handle = s.handle := by unfold clearPolls; split <;> rfl
@[simp] theorem clearPolls_params (s : State) : (clearPolls s).params = s.params := by unfold clearPolls; split <;> rfl
@[simp] theorem clearPolls_pins (s : State) : (clearPolls s).pins = s.pins := by unfold clearPolls; split <;> rfl
@[simp] theorem clearPolls_phase (s : State) : (clearPolls s).phase = s.phase := by unfold clearPolls; split <;> rfl
@[simp] theorem clearPolls_cmd (s : State) : (clearPolls s).cmd = s.cmd := by unfold clearPolls; split <;> rfl
@[simp] theorem clearPolls_queue (s : State) : (clearPolls s).queue = s.queue := by unfold clearPolls; split <;> rfl
@[simp] theorem clearPolls_curByte (s : State) : (clearPolls s).curByte = s.curByte := by unfold clearPolls; split <;> rfl
@[simp] theorem clearPolls_curI (s : State) : (clearPolls s).curI = s.curI := by unfold clearPolls; split <;> rfl
@[simp] theorem clearPolls_setMask (s : State) : (clearPolls s).setMask = s.setMask := by unfold clearPolls; split <;> rfl
@[simp] theorem clearPolls_clrMask (s : State) : (clearPolls s).clrMask = s.clrMask := by unfold clearPolls; split <;> rfl
@[simp] theorem clearPolls_bf (s : State) : (clearPolls s).bf = s.bf := by unfold clearPolls; split <;> rfl
@[simp] theorem clearPolls_fault (s : State) : (clearPolls s).fault = s.fault := by unfold clearPolls; split <;> rfl
@[simp] theorem clearPolls_inited (s : State) : (clearPolls s).inited = s.inited := by unfold clearPolls; split <;> rfl
@[simp] theorem clearPolls_polls (s : State) : (clearPolls s).polls = if s.params.pollLimit.isSome then 0 else s.polls := by unfold clearPolls; split <;> rfl
@[simp] theorem clearPolls_trace (s : State) : (clearPolls s).trace = s.trace := by unfold clearPolls; split <;> rfl
@[simp] theorem clearPolls_timedOut (s : State) : (clearPolls s).timedOut = s.timedOut := by unfold clearPolls; split <;> rfl
@[simp] theorem clearPolls_reports (s : State) : (clearPolls s).reports = s.reports := by unfold clearPolls; split <;> rfl
@[simp] theorem clearPolls_port (s : State) : (clearPolls s).port = s.port := by unfold clearPolls; split <;> rfl
@[simp] theorem clearPolls_samples (s : State) : (clearPolls s).samples = s.samples := by unfold clearPolls; split <;> rfl
@[simp] theorem clearPolls_sampleAfter (s : State) : (clearPolls s).sampleAfter = s.sampleAfter := by unfold clearPolls; split <;> rfl
@[simp] theorem clearPolls_cfgFails (s : State) : (clearPolls s).cfgFails = s.cfgFails := by unfold clearPolls; split <;> rfl
@[simp] theorem clearPolls_draws (s : State) : (clearPolls s).draws = s.draws := by unfold clearPolls; split <;> rfl

/-! ### beginByte -/

@[simp] theorem beginByte_handle (s : State) : (beginByte s).handle = s.handle := by unfold beginByte; split <;> simp [*]
@[simp] theorem beginByte_params (s : State) : (beginByte s).params = s.params := by unfold beginByte; split <;> simp [*]
@[simp] theorem beginByte_pins (s : State) : (beginByte s).pins = s.pins := by unfold beginByte; split <;> simp [*]
@[simp] theorem beginByte_queue (s : State) : (beginByte s).queue = s.queue.tail := by unfold beginByte; split <;> simp [*]
@[simp] theorem beginByte_curI (s : State) : (beginByte s).curI = s.curI := by unfold beginByte; split <;> simp [*]
@[simp] theorem beginByte_setMask (s : State) : (beginByte s).setMask = s.setMask := by unfold beginByte; split <;> simp [*]
@[simp] theorem beginByte_clrMask (s : State) : (beginByte s).clrMask = s.clrMask := by unfold beginByte; split <;> simp [*]
@[simp] theorem beginByte_bf (s : State) : (beginByte s).bf = s.bf := by unfold beginByte; split <;> simp [*]
@[simp] theorem beginByte_fault (s : State) : (beginByte s).fault = s.fault := by unfold beginByte; split <;> simp [*]
@[simp] theorem beginByte_polls (s : State) : (beginByte s).polls = s.polls := by unfold beginByte; split <;> simp [*]
@[simp] theorem beginByte_trace (s : State) : (beginByte s).trace = s.trace := by unfold beginByte; split <;> simp [*]
@[simp] theorem beginByte_timedOut (s : State) : (beginByte s).timedOut = s.timedOut := by unfold beginByte; split <;> simp [*]
@[simp] theorem beginByte_reports (s : State) : (beginByte s).reports = s.reports := by unfold beginByte; split <;> simp [*]
@[simp] theorem beginByte_port (s : State) : (beginByte s).port = s.port := by unfold beginByte; split <;> simp [*]
@[simp] theorem beginByte_samples (s : State) : (beginByte s).samples = s.samples := by unfold beginByte; split <;> simp [*]
@[simp] theorem beginByte_sampleAfter (s : State) : (beginByte s).sampleAfter = s.sampleAfter := by unfold beginByte; split <;> simp [*]
@[simp] theorem beginByte_cfgFails (s : State) : (beginByte s).cfgFails = s.cfgFails := by unfold beginByte; split <;> simp [*]
@[simp] theorem beginByte_draws (s : State) : (beginByte s).draws = s.draws := by unfold beginByte; split <;> simp [*]

/-! ### endByte -/

@[simp] theorem endByte_handle (s : State) : (endByte s).handle = s.handle := by unfold endByte; split <;> rfl
@[simp] theorem endByte_params (s : State) : (endByte s).params = s.params := by unfold endByte; split <;> rfl
@[simp] theorem endByte_pins (s : State) : (endByte s).pins = s.pins := by unfold endByte; split <;> rfl
@[simp] theorem endByte_phase (s : State) : (endByte s).phase = .idle := by unfold endByte; split <;> rfl
@[simp] theorem endByte_queue (s : State) : (endByte s).queue = s.queue := by unfold endByte; split <;> rfl
@[simp] theorem endByte_curByte (s : State) : (endByte s).curByte = s.curByte := by unfold endByte; split <;> rfl
@[simp] theorem endByte_curI (s : State) : (endByte s).curI = s.curI := by unfold endByte; split <;> rfl
@[simp] theorem endByte_setMask (s : State) : (endByte s).setMask = s.setMask := by unfold endByte; split <;> rfl
@[simp] theorem endByte_clrMask (s : State) : (endByte s).clrMask = s.clrMask := by unfold endByte; split <;> rfl
@[simp] theorem endByte_bf (s : State) : (endByte s).bf = s.bf := by unfold endByte; split <;> rfl
@[simp] theorem endByte_fault (s : State) : (endByte s).fault = s.fault := by unfold endByte; split <;> rfl
@[simp] theorem endByte_polls (s : State) : (endByte s).polls = s.polls := by unfold endByte; split <;> rfl
@[simp] theorem endByte_trace (s : State) : (endByte s).trace = s.trace := by unfold endByte; split <;> rfl
@[simp] theorem endByte_timedOut (s : State) : (endByte s).timedOut = s.timedOut := by unfold endByte; split <;> rfl
@[simp] theorem endByte_reports (s : State) : (endByte s).reports = s.reports := by unfold endByte; split <;> rfl
@[simp] theorem endByte_port (s : State) : (endByte s).port = s.port := by unfold endByte; split <;> rfl
@[simp] theorem endByte_samples (s : State) : (endByte s).samples = s.samples := by unfold endByte; split <;> rfl
@[simp] theorem endByte_sampleAfter (s : State) : (endByte s).sampleAfter = s.sampleAfter := by unfold endByte; split <;> rfl
@[simp] theorem endByte_cfgFails (s : State) : (endByte s).cfgFails = s.cfgFails := by unfold endByte; split <;> rfl
@[simp] theorem endByte_draws (s : State) : (endByte s).draws = s.draws := by unfold endByte; split <;> rfl

/-! ### The head and the end of the per-byte loop, by the queue -/

@[simp] theorem beginByte_cons {s : State} {b : Byte} {rest : List Byte} (h : s.queue = b :: rest) :
    beginByte s = loadByte b rest s := by
  simp [beginByte, h]

@[simp] theorem beginByte_nil {s : State} (h : s.queue = []) : beginByte s = completeCommand s := by
  simp [beginByte, h]

@[simp] theorem endByte_nil {s : State} (h : s.queue = []) : endByte s = completeCommand s := by
  simp [endByte, h]

theorem endByte_of_ne {s : State} (h : s.queue ≠ []) : endByte s = s.goto .idle := by
  simp [endByte, h]

end Sys2Proof.Machine
end

