-- ==== Sys2Proof/Laws/Pins.lean ====
section
/-! SUPPORT. Laws of the pin space: reading after each write, and that every write keeps its one entry per pin. -/

namespace Sys2Proof.Machine

/-- The canonical form of a pin space: one entry for each pin below `PIN_COUNT`. -/
abbrev PinSpace.wf (pinCount : Nat) (ps : PinSpace) : Prop := ps.length = pinCount

@[simp] theorem length_updateFrom (f : PinId → Pin → Pin) (p : PinId) (ps : PinSpace) :
    (updateFrom f p ps).length = ps.length := by
  induction ps generalizing p with
  | nil => rfl
  | cons x xs ih => simp [updateFrom, ih]

@[simp] theorem length_updatePins (f : PinId → Pin → Pin) (ps : PinSpace) :
    (updatePins f ps).length = ps.length := length_updateFrom f 0 ps

theorem getElem?_updateFrom (f : PinId → Pin → Pin) (q p : Nat) (ps : PinSpace) :
    (updateFrom f q ps)[p]? = ps[p]?.map (f (q + p)) := by
  induction ps generalizing q p with
  | nil => simp [updateFrom]
  | cons x xs ih =>
    cases p with
    | zero => simp [updateFrom]
    | succ p => rw [updateFrom, List.getElem?_cons_succ, List.getElem?_cons_succ, ih, Nat.add_right_comm, Nat.add_assoc]

/-- Reading a pin after a write of the pin space: the function at that pin, applied to what it held. -/
@[simp] theorem getElem?_updatePins (f : PinId → Pin → Pin) (p : PinId) (ps : PinSpace) :
    (updatePins f ps)[p]? = ps[p]?.map (f p) := by
  rw [updatePins, getElem?_updateFrom, Nat.zero_add]

/-- Every write of the pin space keeps its canonical form. -/
theorem updatePins_wf {n : Nat} {ps : PinSpace} (f : PinId → Pin → Pin) (h : PinSpace.wf n ps) :
    PinSpace.wf n (updatePins f ps) := (length_updatePins f ps).trans h

@[simp] theorem length_resetPinsFrom (p n : Nat) : (resetPinsFrom p n).length = n := by
  induction n generalizing p with
  | zero => rfl
  | succ n ih => simp [resetPinsFrom, ih]

/-- The pin space after reset has its canonical form. -/
theorem reset_pins_wf : PinSpace.wf Config.pinCount State.reset.pins := length_resetPinsFrom 0 Config.pinCount

theorem getElem?_resetPinsFrom (p n i : Nat) :
    (resetPinsFrom p n)[i]? = if i < n then
      some { mode := .unconf, pull := Config.pullReset (p + i), intr := Config.intrReset (p + i),
             latch := Config.latchReset (p + i) } else none := by
  induction n generalizing p i with
  | zero => simp [resetPinsFrom]
  | succ n ih =>
    cases i with
    | zero => simp [resetPinsFrom]
    | succ i =>
      simp only [resetPinsFrom, List.getElem?_cons_succ, ih, Nat.add_lt_add_iff_right]
      rw [show p + 1 + i = p + (i + 1) by omega]

/-- Pin spaces that read alike are equal. -/
theorem pins_ext {ps qs : PinSpace} (h : ∀ p : PinId, ps[p]? = qs[p]?) : ps = qs := List.ext_getElem? h

section
variable {s t : State} {p q : PinId} {v : Level} {P S C : PinSet} {dir : Dir} {pull : Pull} {intr : Intr} {n : Nat}

/-! ### `LATCH[p]` after each write -/

@[simp] theorem latchOf_emit (e : Event) : (s.emit e).latchOf p = s.latchOf p := rfl
@[simp] theorem modeOf_emit (e : Event) : (s.emit e).modeOf p = s.modeOf p := rfl
@[simp] theorem settingsOf_emit (e : Event) : (s.emit e).settingsOf p = s.settingsOf p := rfl

theorem latchOf_congr (h : t.pins = s.pins) : t.latchOf p = s.latchOf p := by simp [State.latchOf, h]
theorem modeOf_congr (h : t.pins = s.pins) : t.modeOf p = s.modeOf p := by simp [State.modeOf, h]
theorem settingsOf_congr (h : t.pins = s.pins) : t.settingsOf p = s.settingsOf p := by simp [State.settingsOf, h]

theorem latchOf_latchPin (h : t.pins = updatePins (latchPin q v) s.pins) :
    t.latchOf p = if p = q then (s.latchOf p).map (fun _ => v) else s.latchOf p := by
  simp only [State.latchOf, h, getElem?_updatePins, Option.map_map]
  cases s.pins[p]? <;> by_cases e : p = q <;> simp [latchPin, e]

theorem latchOf_latchSets (h : t.pins = updatePins (latchSets S C) s.pins) :
    t.latchOf p = if p ∈ S then (s.latchOf p).map (fun _ => true)
      else if p ∈ C then (s.latchOf p).map (fun _ => false) else s.latchOf p := by
  simp only [State.latchOf, h, getElem?_updatePins, Option.map_map]
  cases s.pins[p]? <;> by_cases e : p ∈ S <;> by_cases e' : p ∈ C <;> simp [latchSets, e, e']

theorem latchOf_configure (h : t.pins = updatePins (configurePin P dir pull intr) s.pins) :
    t.latchOf p = s.latchOf p := by
  simp only [State.latchOf, h, getElem?_updatePins, Option.map_map]
  cases s.pins[p]? <;> by_cases e : p ∈ P <;> simp [configurePin, e]

theorem latchOf_scramble (h : t.pins = updatePins (scramblePin P n) s.pins) : t.latchOf p = s.latchOf p := by
  simp only [State.latchOf, h, getElem?_updatePins, Option.map_map]
  cases s.pins[p]? <;> by_cases e : p ∈ P <;> simp [scramblePin, e]

/-- A pin of the platform has a latch. -/
theorem latchOf_isSome (h : p < s.pinCount) : ∃ v, s.latchOf p = some v := by
  have h' : p < s.pins.length := h
  exact ⟨s.pins[p].latch, by simp [State.latchOf, h']⟩

/-! ### `MODE[p]`, `PULL[p]`, `INTR[p]` after each write -/

theorem settingsOf_latchPin (h : t.pins = updatePins (latchPin q v) s.pins) : t.settingsOf p = s.settingsOf p := by
  simp only [State.settingsOf, h, getElem?_updatePins, Option.map_map]
  cases s.pins[p]? <;> by_cases e : p = q <;> simp [latchPin, e]

theorem settingsOf_latchSets (h : t.pins = updatePins (latchSets S C) s.pins) :
    t.settingsOf p = s.settingsOf p := by
  simp only [State.settingsOf, h, getElem?_updatePins, Option.map_map]
  cases s.pins[p]? <;> by_cases e : p ∈ S <;> by_cases e' : p ∈ C <;> simp [latchSets, e, e']

theorem settingsOf_configure (h : t.pins = updatePins (configurePin P dir pull intr) s.pins) :
    t.settingsOf p = if p ∈ P then (s.settingsOf p).map (fun _ => (Dir.mode dir, pull, intr)) else s.settingsOf p := by
  simp only [State.settingsOf, h, getElem?_updatePins, Option.map_map]
  cases s.pins[p]? <;> by_cases e : p ∈ P <;> simp [configurePin, e]

theorem settingsOf_scramble_of_not_mem (h : t.pins = updatePins (scramblePin P n) s.pins) (hp : p ∉ P) :
    t.settingsOf p = s.settingsOf p := by
  simp only [State.settingsOf, h, getElem?_updatePins, Option.map_map]
  cases s.pins[p]? <;> simp [scramblePin, hp]

/-- `MODE[p]` is the first of the pin's settings. -/
theorem modeOf_eq_settings : s.modeOf p = ((s.settingsOf p).map Prod.fst).getD .unconf := by
  unfold State.modeOf State.settingsOf; cases s.pins[p]? <;> rfl

theorem settingsOf_isSome (h : p < s.pinCount) : ∃ x, s.settingsOf p = some x := by
  have h' : p < s.pins.length := h
  exact ⟨_, by rw [State.settingsOf, List.getElem?_eq_getElem h', Option.map_some]⟩

theorem modeOf_eq_of_settings (h : t.settingsOf p = s.settingsOf p) : t.modeOf p = s.modeOf p := by
  rw [modeOf_eq_settings, modeOf_eq_settings, h]

end

end Sys2Proof.Machine
end

