-- ==== Sys2Proof/Laws/Ops.lean ====
section
/-! SUPPORT. One law for each shared operation that says everything it can do, cited in place of unfolding it. -/

namespace Sys2Proof.Machine

/-! ### The four primitives -/

section
variable {P S C : PinSet} {p : PinId} {v : Level} {dir : Dir} {pull : Pull} {intr : Intr} {s t : State}

theorem pinConfig_of_ok {k : State → State} (h : s.configWillFail = false) :
    pinConfig P dir pull intr k s = .next (k (s.afterConfig P dir pull intr)) := by simp [pinConfig, h]

theorem pinConfig_of_fails {k : State → State} (h : s.configWillFail = true) :
    pinConfig P dir pull intr k s = .next (s.afterFailedConfig P) := by simp [pinConfig, h]

/-- A `PinConfig` call always ends: in the fault state if it fails, else in the new settings. -/
theorem pinConfig_next {k : State → State} (h : pinConfig P dir pull intr k s = .next t) :
    (s.configWillFail = true ∧ t = s.afterFailedConfig P) ∨
    (s.configWillFail = false ∧ t = k (s.afterConfig P dir pull intr)) := by
  cases hf : s.configWillFail <;> simp [pinConfig, hf] at h <;> simp [h]

theorem pinWrite_of_output {k : State → State} (h : s.modeOf p = .output) :
    pinWrite p v k s = .next (k (s.afterWrite p v)) := by simp [pinWrite, h]

/-- A `PinWrite` that ends was on an output. -/
theorem pinWrite_next {k : State → State} (h : pinWrite p v k s = .next t) :
    s.modeOf p = .output ∧ t = k (s.afterWrite p v) := by
  unfold pinWrite at h; split at h
  · exact ⟨‹_›, by simpa using h.symm⟩
  · cases h

theorem pinSetClear_of_outputs {k : State → State} (hS : ∀ p ∈ S, s.modeOf p = .output)
    (hC : ∀ p ∈ C, s.modeOf p = .output) : pinSetClear S C k s = .next (k (s.afterSetClear S C)) := by
  rw [pinSetClear, if_pos ⟨hS, hC⟩]

/-- A `PinSetClear` that ends was on outputs. -/
theorem pinSetClear_next {k : State → State} (h : pinSetClear S C k s = .next t) :
    (∀ p ∈ S, s.modeOf p = .output) ∧ (∀ p ∈ C, s.modeOf p = .output) ∧ t = k (s.afterSetClear S C) := by
  unfold pinSetClear at h; split at h
  next hm => exact ⟨hm.1, hm.2, by simpa using h.symm⟩
  · cases h

theorem pinRead_of_input {k : Level → State → State} (h : s.modeOf p = .input) :
    pinRead p k s = .next (k (s.nextLevel p) (s.afterRead p)) := by simp [pinRead, h]

/-- A `PinRead` that ends was on an input. -/
theorem pinRead_next {k : Level → State → State} (h : pinRead p k s = .next t) :
    s.modeOf p = .input ∧ t = k (s.nextLevel p) (s.afterRead p) := by
  unfold pinRead at h; split at h
  · exact ⟨‹_›, by simpa using h.symm⟩
  · cases h

end

/-! ### Admitting a command -/

/-- The handle check depends on the handle and on `PIN_COUNT` only. -/
theorem handleOk_iff {s : State} : s.handleOk = true ↔ handleWellFormed s.handle s.pins.length :=
  decide_eq_true_iff

theorem handleOk_congr {s t : State} (hh : t.handle = s.handle) (hp : t.pins.length = s.pins.length) :
    t.handleOk = s.handleOk := by
  unfold State.handleOk State.pinCount; rw [hh, hp]

theorem refusalOf_none_iff {needs : Bool} {s : State} :
    refusalOf needs s = none ↔ s.handleOk = true ∧ s.fault = none ∧ s.phase = .idle ∧ s.cmd = .none ∧
      (needs = true → s.inited = true) := by
  unfold refusalOf
  cases s.handleOk <;> cases needs <;> cases s.inited <;> simp <;>
    by_cases h2 : s.fault = none <;> by_cases h3 : s.phase = .idle <;> by_cases h4 : s.cmd = .none <;> simp [h2, h3, h4]

theorem accept_of_ok {needs : Bool} {k : State → State} {s : State} (h1 : s.handleOk = true) (h2 : s.fault = none)
    (h3 : s.phase = .idle) (h4 : s.cmd = .none) (h5 : needs = true → s.inited = true) :
    accept needs k s = .next (k s) := by
  rw [accept, refusalOf_none_iff.2 ⟨h1, h2, h3, h4, h5⟩]

/-- An accepted command came to a block that was idle, not faulted, on a well-formed handle, and initialised if it
needs that. -/
theorem accept_next {needs : Bool} {k : State → State} {s t : State} (h : accept needs k s = .next t) :
    s.handleOk = true ∧ s.fault = none ∧ s.phase = .idle ∧ s.cmd = .none ∧ (needs = true → s.inited = true) ∧ t = k s := by
  unfold accept at h
  split at h
  · cases h
  next hr =>
    obtain ⟨h1, h2, h3, h4, h5⟩ := refusalOf_none_iff.1 hr
    exact ⟨h1, h2, h3, h4, h5, by simpa using h.symm⟩

end Sys2Proof.Machine
end

