-- ==== Sys2Proof/Laws/PerInstr.lean ====
section
/-! SUPPORT. What holds of every instruction as syntax, one lemma per constructor: its encoding lies in its row of
spec/opcode_table.json. -/

namespace Sys2Proof.Laws.TableRow

/-- The `mask` column of the row of an instruction (30_encoding.md R72, R76). -/
def mask : Instr → BitVec 32
  | .init | .waitReady | .clear => 0xFFFFFFFF#32
  | .send _ _ => 0xFFFE0000#32
  | .sendSingle _ _ => 0xFFFEFF00#32
  | .irWrite | .drWrite | .busyRead => 0x3#32

/-- The `match` column of the row of an instruction (30_encoding.md R72, R76). -/
def pattern : Instr → BitVec 32
  | .init => 0x10000000#32
  | .waitReady => 0x20000000#32
  | .send _ _ => 0x30000000#32
  | .sendSingle _ _ => 0x40000000#32
  | .clear => 0x50000000#32
  | .irWrite => 0x0#32
  | .drWrite => 0x2#32
  | .busyRead => 0x1#32

/-- The first word of an instruction's encoding as a number of 32 bits. -/
def firstWord : Words → Option (BitVec 32)
  | .port (.header w :: _) => some w
  | .port _ => none
  | .bus code => some (code.setWidth 32)

/-- A well-formed instruction's first word selects its own row: `word AND mask = match` (30_encoding.md R72). -/
def Statement (i : Instr) : Prop :=
  i.wellFormed = true → ∃ w, firstWord (encode i) = some w ∧ w &&& mask i = pattern i

theorem init : Statement .init := fun _ => ⟨_, rfl, by decide⟩

theorem waitReady : Statement .waitReady := fun _ => ⟨_, rfl, by decide⟩

theorem send (f : Bool) (bytes : List Byte) : Statement (.send f bytes) := fun _ => ⟨_, rfl, by
  apply BitVec.eq_of_getLsbD_eq
  intro i hi
  rw [BitVec.getLsbD_and, getLsbD_headerWord, mask, pattern]
  by_cases h : i < 17
  · have hm : ∀ j : Fin 17, (0xFFFE0000#32).getLsbD j = false ∧ (0x30000000#32).getLsbD j = false := by decide
    have := hm ⟨i, h⟩
    simp [this.1, this.2]
  · have hm : ∀ j : Fin 32, 17 ≤ j.val → ((if j.val < 28 then false else (3#4).getLsbD (j - 28)) &&
        (0xFFFE0000#32).getLsbD j) = (0x30000000#32).getLsbD j := by decide
    rw [if_neg (show ¬ i < 16 by omega), if_neg (show ¬ i = 16 by omega)]
    exact hm ⟨i, hi⟩ (Nat.not_lt.1 h)⟩

theorem sendSingle (f : Bool) (b : Byte) : Statement (.sendSingle f b) := fun _ => ⟨_, rfl, by
  cases f <;> revert b <;> decide⟩

theorem clear : Statement .clear := fun _ => ⟨_, rfl, by decide⟩

theorem irWrite : Statement .irWrite := fun _ => ⟨_, rfl, by decide⟩

theorem drWrite : Statement .drWrite := fun _ => ⟨_, rfl, by decide⟩

theorem busyRead : Statement .busyRead := fun _ => ⟨_, rfl, by decide⟩

end Sys2Proof.Laws.TableRow
end

