-- ==== Sys2Proof/Laws/PinReads.lean ====
section
/-! SUPPORT. Reading a pin after each named update of the state: one lemma per reading per update. -/

namespace Sys2Proof.Machine

/-! ### goto -/

@[simp] theorem goto_latchOf (f : Phase) (s : State) (p : PinId) : (s.goto f).latchOf p = s.latchOf p := rfl
@[simp] theorem goto_modeOf (f : Phase) (s : State) (p : PinId) : (s.goto f).modeOf p = s.modeOf p := rfl
@[simp] theorem goto_settingsOf (f : Phase) (s : State) (p : PinId) : (s.goto f).settingsOf p = s.settingsOf p := rfl

/-! ### withPort -/

@[simp] theorem withPort_latchOf (s : State) (ws : List PortWord) (p : PinId) : (s.withPort ws).latchOf p = s.latchOf p := rfl
@[simp] theorem withPort_modeOf (s : State) (ws : List PortWord) (p : PinId) : (s.withPort ws).modeOf p = s.modeOf p := rfl
@[simp] theorem withPort_settingsOf (s : State) (ws : List PortWord) (p : PinId) : (s.withPort ws).settingsOf p = s.settingsOf p := rfl

/-! ### loadByte -/

@[simp] theorem loadByte_latchOf (b : Byte) (bs : List Byte) (s : State) (p : PinId) : (loadByte b bs s).latchOf p = s.latchOf p := rfl
@[simp] theorem loadByte_modeOf (b : Byte) (bs : List Byte) (s : State) (p : PinId) : (loadByte b bs s).modeOf p = s.modeOf p := rfl
@[simp] theorem loadByte_settingsOf (b : Byte) (bs : List Byte) (s : State) (p : PinId) : (loadByte b bs s).settingsOf p = s.settingsOf p := rfl

/-! ### loadSend -/

@[simp] theorem loadSend_latchOf (f : Bool) (bs : List Byte) (s : State) (p : PinId) : (loadSend f bs s).latchOf p = s.latchOf p := rfl
@[simp] theorem loadSend_modeOf (f : Bool) (bs : List Byte) (s : State) (p : PinId) : (loadSend f bs s).modeOf p = s.modeOf p := rfl
@[simp] theorem loadSend_settingsOf (f : Bool) (bs : List Byte) (s : State) (p : PinId) : (loadSend f bs s).settingsOf p = s.settingsOf p := rfl

/-! ### withSample -/

@[simp] theorem withSample_latchOf (v : Level) (n : Nat) (o : Bool) (s : State) (p : PinId) : (s.withSample v n o).latchOf p = s.latchOf p := rfl
@[simp] theorem withSample_modeOf (v : Level) (n : Nat) (o : Bool) (s : State) (p : PinId) : (s.withSample v n o).modeOf p = s.modeOf p := rfl
@[simp] theorem withSample_settingsOf (v : Level) (n : Nat) (o : Bool) (s : State) (p : PinId) : (s.withSample v n o).settingsOf p = s.settingsOf p := rfl

/-! ### startInit -/

@[simp] theorem startInit_latchOf (s : State) (p : PinId) : (startInit s).latchOf p = s.latchOf p := rfl
@[simp] theorem startInit_modeOf (s : State) (p : PinId) : (startInit s).modeOf p = s.modeOf p := rfl
@[simp] theorem startInit_settingsOf (s : State) (p : PinId) : (startInit s).settingsOf p = s.settingsOf p := rfl

/-! ### startWaitReady -/

@[simp] theorem startWaitReady_latchOf (s : State) (p : PinId) : (startWaitReady s).latchOf p = s.latchOf p := rfl
@[simp] theorem startWaitReady_modeOf (s : State) (p : PinId) : (startWaitReady s).modeOf p = s.modeOf p := rfl
@[simp] theorem startWaitReady_settingsOf (s : State) (p : PinId) : (startWaitReady s).settingsOf p = s.settingsOf p := rfl

/-! ### queueBringUp -/

@[simp] theorem queueBringUp_latchOf (s : State) (p : PinId) : (queueBringUp s).latchOf p = s.latchOf p := rfl
@[simp] theorem queueBringUp_modeOf (s : State) (p : PinId) : (queueBringUp s).modeOf p = s.modeOf p := rfl
@[simp] theorem queueBringUp_settingsOf (s : State) (p : PinId) : (queueBringUp s).settingsOf p = s.settingsOf p := rfl

/-! ### tookConfigDraw -/

@[simp] theorem tookConfigDraw_latchOf (s : State) (p : PinId) : s.tookConfigDraw.latchOf p = s.latchOf p := rfl
@[simp] theorem tookConfigDraw_modeOf (s : State) (p : PinId) : s.tookConfigDraw.modeOf p = s.modeOf p := rfl
@[simp] theorem tookConfigDraw_settingsOf (s : State) (p : PinId) : s.tookConfigDraw.settingsOf p = s.settingsOf p := rfl

/-! ### tookLevelDraw -/

@[simp] theorem tookLevelDraw_latchOf (s : State) (p : PinId) : s.tookLevelDraw.latchOf p = s.latchOf p := rfl
@[simp] theorem tookLevelDraw_modeOf (s : State) (p : PinId) : s.tookLevelDraw.modeOf p = s.modeOf p := rfl
@[simp] theorem tookLevelDraw_settingsOf (s : State) (p : PinId) : s.tookLevelDraw.settingsOf p = s.settingsOf p := rfl

/-! ### raiseConfigurationError -/

@[simp] theorem raiseConfigurationError_latchOf (c : ErrorCode) (s : State) (p : PinId) : (raiseConfigurationError c s).latchOf p = s.latchOf p := rfl
@[simp] theorem raiseConfigurationError_modeOf (c : ErrorCode) (s : State) (p : PinId) : (raiseConfigurationError c s).modeOf p = s.modeOf p := rfl
@[simp] theorem raiseConfigurationError_settingsOf (c : ErrorCode) (s : State) (p : PinId) : (raiseConfigurationError c s).settingsOf p = s.settingsOf p := rfl

/-! ### raiseTimeoutError -/

@[simp] theorem raiseTimeoutError_latchOf (s : State) (p : PinId) : (raiseTimeoutError s).latchOf p = s.latchOf p := rfl
@[simp] theorem raiseTimeoutError_modeOf (s : State) (p : PinId) : (raiseTimeoutError s).modeOf p = s.modeOf p := rfl
@[simp] theorem raiseTimeoutError_settingsOf (s : State) (p : PinId) : (raiseTimeoutError s).settingsOf p = s.settingsOf p := rfl

/-! ### completeCommand -/

@[simp] theorem completeCommand_latchOf (s : State) (p : PinId) : (completeCommand s).latchOf p = s.latchOf p := rfl
@[simp] theorem completeCommand_modeOf (s : State) (p : PinId) : (completeCommand s).modeOf p = s.modeOf p := rfl
@[simp] theorem completeCommand_settingsOf (s : State) (p : PinId) : (completeCommand s).settingsOf p = s.settingsOf p := rfl

/-! ### beginAddressPhase -/

@[simp] theorem beginAddressPhase_latchOf (s : State) (p : PinId) : (beginAddressPhase s).latchOf p = s.latchOf p := rfl
@[simp] theorem beginAddressPhase_modeOf (s : State) (p : PinId) : (beginAddressPhase s).modeOf p = s.modeOf p := rfl
@[simp] theorem beginAddressPhase_settingsOf (s : State) (p : PinId) : (beginAddressPhase s).settingsOf p = s.settingsOf p := rfl

/-! ### takeSample -/

@[simp] theorem takeSample_latchOf (v : Level) (s : State) (p : PinId) : (takeSample v s).latchOf p = s.latchOf p := rfl
@[simp] theorem takeSample_modeOf (v : Level) (s : State) (p : PinId) : (takeSample v s).modeOf p = s.modeOf p := rfl
@[simp] theorem takeSample_settingsOf (v : Level) (s : State) (p : PinId) : (takeSample v s).settingsOf p = s.settingsOf p := rfl

/-! ### clearPolls -/

@[simp] theorem clearPolls_latchOf (s : State) (p : PinId) : (clearPolls s).latchOf p = s.latchOf p := latchOf_congr (by simp)
@[simp] theorem clearPolls_modeOf (s : State) (p : PinId) : (clearPolls s).modeOf p = s.modeOf p := modeOf_congr (by simp)
@[simp] theorem clearPolls_settingsOf (s : State) (p : PinId) : (clearPolls s).settingsOf p = s.settingsOf p := settingsOf_congr (by simp)

/-! ### beginByte -/

@[simp] theorem beginByte_latchOf (s : State) (p : PinId) : (beginByte s).latchOf p = s.latchOf p := latchOf_congr (by simp)
@[simp] theorem beginByte_modeOf (s : State) (p : PinId) : (beginByte s).modeOf p = s.modeOf p := modeOf_congr (by simp)
@[simp] theorem beginByte_settingsOf (s : State) (p : PinId) : (beginByte s).settingsOf p = s.settingsOf p := settingsOf_congr (by simp)

/-! ### endByte -/

@[simp] theorem endByte_latchOf (s : State) (p : PinId) : (endByte s).latchOf p = s.latchOf p := latchOf_congr (by simp)
@[simp] theorem endByte_modeOf (s : State) (p : PinId) : (endByte s).modeOf p = s.modeOf p := modeOf_congr (by simp)
@[simp] theorem endByte_settingsOf (s : State) (p : PinId) : (endByte s).settingsOf p = s.settingsOf p := settingsOf_congr (by simp)

/-! ### The four primitives -/

section
variable {s : State} {p q : PinId} {v : Level} {P S C : PinSet} {dir : Dir} {pull : Pull} {intr : Intr}

@[simp] theorem afterWrite_latchOf :
    (s.afterWrite q v).latchOf p = if p = q then (s.latchOf p).map (fun _ => v) else s.latchOf p :=
  latchOf_latchPin (s := s) rfl
@[simp] theorem afterWrite_settingsOf : (s.afterWrite q v).settingsOf p = s.settingsOf p :=
  settingsOf_latchPin (s := s) rfl
@[simp] theorem afterWrite_modeOf : (s.afterWrite q v).modeOf p = s.modeOf p :=
  modeOf_eq_of_settings afterWrite_settingsOf

@[simp] theorem afterSetClear_latchOf :
    (s.afterSetClear S C).latchOf p = if p ∈ S then (s.latchOf p).map (fun _ => true)
      else if p ∈ C then (s.latchOf p).map (fun _ => false) else s.latchOf p :=
  latchOf_latchSets (s := s) rfl
@[simp] theorem afterSetClear_settingsOf : (s.afterSetClear S C).settingsOf p = s.settingsOf p :=
  settingsOf_latchSets (s := s) rfl
@[simp] theorem afterSetClear_modeOf : (s.afterSetClear S C).modeOf p = s.modeOf p :=
  modeOf_eq_of_settings afterSetClear_settingsOf

@[simp] theorem afterConfig_latchOf : (s.afterConfig P dir pull intr).latchOf p = s.latchOf p :=
  latchOf_configure (s := s) rfl
@[simp] theorem afterConfig_settingsOf :
    (s.afterConfig P dir pull intr).settingsOf p =
      if p ∈ P then (s.settingsOf p).map (fun _ => (Dir.mode dir, pull, intr)) else s.settingsOf p :=
  settingsOf_configure (s := s) rfl
theorem afterConfig_modeOf_mem (hp : p ∈ P) (hlt : p < s.pinCount) :
    (s.afterConfig P dir pull intr).modeOf p = Dir.mode dir := by
  obtain ⟨x, hx⟩ := settingsOf_isSome hlt
  rw [modeOf_eq_settings, afterConfig_settingsOf, if_pos hp, hx]; rfl
theorem afterConfig_modeOf_not_mem (hp : p ∉ P) : (s.afterConfig P dir pull intr).modeOf p = s.modeOf p :=
  modeOf_eq_of_settings (by rw [afterConfig_settingsOf, if_neg hp])

@[simp] theorem afterFailedConfig_latchOf : (s.afterFailedConfig P).latchOf p = s.latchOf p :=
  latchOf_scramble (s := s) (P := P) (n := s.draws) rfl
theorem afterFailedConfig_settingsOf (hp : p ∉ P) : (s.afterFailedConfig P).settingsOf p = s.settingsOf p :=
  settingsOf_scramble_of_not_mem (s := s) (P := P) (n := s.draws) rfl hp
theorem afterFailedConfig_modeOf (hp : p ∉ P) : (s.afterFailedConfig P).modeOf p = s.modeOf p :=
  modeOf_eq_of_settings (afterFailedConfig_settingsOf hp)

@[simp] theorem afterRead_latchOf : (s.afterRead q).latchOf p = s.latchOf p := rfl
@[simp] theorem afterRead_settingsOf : (s.afterRead q).settingsOf p = s.settingsOf p := rfl
@[simp] theorem afterRead_modeOf : (s.afterRead q).modeOf p = s.modeOf p := rfl

end

end Sys2Proof.Machine
end

