-- ==== Sys2Proof/Laws/Run.lean ====
section
/-! SUPPORT. Runs of several steps: one step at a time, and one run after another. -/

namespace Sys2Proof.Machine

@[simp] theorem run_zero (s : State) : run 0 s = .next s := rfl

theorem run_succ (k : Nat) (s : State) :
    run (k + 1) s = match step s with
      | .next t => run k t
      | .fault r => .fault r
      | .refused r => .refused r := by
  have e : Host.Core.step Sys2Proof.core s = step s := rfl
  show Host.Core.run Sys2Proof.core (k + 1) s = _
  simp only [Host.Core.run, e]
  cases step s <;> rfl

/-- A run goes on after a step that answers. -/
theorem run_succ_of_step {k : Nat} {s t : State} (h : step s = .next t) : run (k + 1) s = run k t := by
  rw [run_succ, h]

theorem run_one {s t : State} (h : step s = .next t) : run 1 s = .next t := by rw [run_succ_of_step h, run_zero]

/-- A run goes on after a run that answers. -/
theorem run_add {j k : Nat} {s t : State} (h : run j s = .next t) : run (j + k) s = run k t := by
  induction j generalizing s with
  | zero => cases h; rw [Nat.zero_add]
  | succ j ih =>
    rw [run_succ] at h
    cases hs : step s with
    | next u => rw [hs] at h; rw [Nat.add_right_comm, run_succ_of_step hs, ih h]
    | fault r => rw [hs] at h; cases h
    | refused r => rw [hs] at h; cases h

/-- A run that answers took a first step that answers. -/
theorem run_succ_next {k : Nat} {s t : State} (h : run (k + 1) s = .next t) :
    ∃ u, step s = .next u ∧ run k u = .next t := by
  rw [run_succ] at h
  cases hs : step s with
  | next u => rw [hs] at h; exact ⟨u, rfl, h⟩
  | fault r => rw [hs] at h; cases h
  | refused r => rw [hs] at h; cases h

/-- A run that answers took a last step that answers. -/
theorem run_succ_last {k : Nat} {s t : State} (h : run (k + 1) s = .next t) :
    ∃ u, run k s = .next u ∧ step u = .next t := by
  induction k generalizing s with
  | zero => obtain ⟨u, hu, hr⟩ := run_succ_next h; cases hr; exact ⟨s, rfl, hu⟩
  | succ k ih =>
    obtain ⟨u, hu, hr⟩ := run_succ_next h
    obtain ⟨v, hv, hs⟩ := ih hr
    exact ⟨v, by rw [run_succ_of_step hu, hv], hs⟩

/-- What holds at the start of a run and is kept by every step holds at its end. -/
theorem run_keeps {P : State → Prop} (hP : ∀ s t, P s → step s = .next t → P t) {k : Nat} {s t : State}
    (hs : P s) (h : run k s = .next t) : P t := by
  induction k generalizing s with
  | zero => cases h; exact hs
  | succ k ih =>
    obtain ⟨u, hu, hr⟩ := run_succ_next h
    exact ih (hP s u hs hu) hr

end Sys2Proof.Machine
end

