-- ==== Sys2Proof/Laws/Step.lean ====
section
/-! SUPPORT. What a step can do, said once: the step in each phase, and `Moves`, which lists every way a step that answers
a next state can go. -/

namespace Sys2Proof.Machine

/-! ### The step in each phase -/

section
variable {s : State}

theorem step_idle (hp : s.phase = .idle) (hc : s.cmd = .none) :
    step s = match decodePort s.port with
      | .instr i rest => exec i (s.withPort rest)
      | .incomplete => .next s
      | .rejected why => .refused (.reservedEncoding why) := by
  unfold step fetch fetchCommand; rw [hp]; simp only [hc, if_true]
  cases decodePort s.port <;> rfl

theorem step_between (hp : s.phase = .idle) (hc : s.cmd ≠ .none) : step s = .next (beginByte s) := by
  simp [step, fetch, hp, hc]

theorem step_config {c : ConfigStep} (hp : s.phase = .config c) : step s = configStep c s := by
  simp [step, fetch, hp]

theorem step_waitBusy {b : BusyStep} (hp : s.phase = .waitBusy b) : step s = busyReadStep b s := by
  simp [step, fetch, hp, exec, execBusyRead]

theorem step_writeCycle (hp : InWriteCycle s.phase) : step s = writeCycleStep (rsLevel s.curI) s := by
  cases h : s.phase <;> simp [h, InWriteCycle] at hp <;>
    cases hi : s.curI <;> simp [step, fetch, h, writeCycleInstr, hi, exec, execIrWrite, execDrWrite]

end

/-! ### Each arm of `exec`, by the shared operation it calls -/

section
variable (s : State)

theorem exec_init : exec .init s = accept false startInit s := rfl
theorem exec_waitReady : exec .waitReady s = accept true startWaitReady s := rfl
theorem exec_send (f : Bool) (bs : List Byte) : exec (.send f bs) s = accept true (startSend f bs) s := rfl
theorem exec_sendSingle (f : Bool) (b : Byte) : exec (.sendSingle f b) s = accept true (startSend f [b]) s := rfl
theorem exec_clear :
    exec .clear s = accept true (fun t => startSend true [t.params.clearInstruction] t) s := rfl

/-- Outside the sub-steps of its cycle no bus cycle runs. -/
theorem exec_busCycle_refused (hw : ¬ InWriteCycle s.phase) (hb : ∀ b, s.phase ≠ .waitBusy b) :
    exec .irWrite s = .refused .cycleNotInProgress ∧ exec .drWrite s = .refused .cycleNotInProgress ∧
      exec .busyRead s = .refused .cycleNotInProgress := by
  cases hp : s.phase <;> simp_all [InWriteCycle, exec, execIrWrite, execDrWrite, execBusyRead, writeCycleStep]

end

/-! ### Every way a step can go -/

/-- Every way a step that answers a next state can go: one constructor per case, with what it needed and the state it
leaves (10_state.md R20). -/
inductive Moves (s : State) : State → Prop
  | waits (hp : s.phase = .idle) (hc : s.cmd = .none) (hw : decodePort s.port = .incomplete) : Moves s s
  | acceptsInit (rest : List PortWord) (hok : s.handleOk = true) (hf : s.fault = none) (hp : s.phase = .idle)
      (hc : s.cmd = .none) (hw : decodePort s.port = .instr .init rest) : Moves s (startInit (s.withPort rest))
  | acceptsWait (rest : List PortWord) (hok : s.handleOk = true) (hf : s.fault = none) (hp : s.phase = .idle)
      (hc : s.cmd = .none) (hi : s.inited = true) (hw : decodePort s.port = .instr .waitReady rest) :
      Moves s (startWaitReady (s.withPort rest))
  | acceptsEmpty (rest : List PortWord) (f : Bool) (hok : s.handleOk = true) (hf : s.fault = none)
      (hp : s.phase = .idle) (hc : s.cmd = .none) (hi : s.inited = true)
      (hw : decodePort s.port = .instr (.send f []) rest) :
      Moves s (completeCommand (loadSend f [] (s.withPort rest)))
  | acceptsSend (rest : List PortWord) (f : Bool) (b : Byte) (bs : List Byte) (hok : s.handleOk = true)
      (hf : s.fault = none) (hp : s.phase = .idle) (hc : s.cmd = .none) (hi : s.inited = true)
      (hw : decodePort s.port = .instr (.send f (b :: bs)) rest ∨
        bs = [] ∧ (decodePort s.port = .instr (.sendSingle f b) rest ∨
          f = true ∧ b = s.params.clearInstruction ∧ decodePort s.port = .instr .clear rest)) :
      Moves s (loadByte b bs (loadSend f (b :: bs) (s.withPort rest)))
  | nextByte (b : Byte) (bs : List Byte) (hp : s.phase = .idle) (hc : s.cmd ≠ .none) (hq : s.queue = b :: bs) :
      Moves s (loadByte b bs s)
  | nothingLeft (hp : s.phase = .idle) (hc : s.cmd ≠ .none) (hq : s.queue = []) : Moves s (completeCommand s)
  | widthOk (hp : s.phase = .config .cf0) (hl : legalWidth s.handle) : Moves s (s.goto (.config .cf1))
  | widthBad (hp : s.phase = .config .cf0) (hl : ¬ legalWidth s.handle) :
      Moves s (raiseConfigurationError .badWidth s)
  | dataConfigured (hp : s.phase = .config .cf1) (hd : s.configWillFail = false) :
      Moves s ((s.afterConfig (dataSet s.handle) .output .none .off).goto (.config .cf2))
  | dataFailed (b : Phase) (hb : b = .config .cf1 ∨ b = .waitBusy .wb0 ∨ b = .waitBusy .wb6) (hp : s.phase = b)
      (hd : s.configWillFail = true) : Moves s (s.afterFailedConfig (dataSet s.handle))
  | ctrlConfigured (hp : s.phase = .config .cf2) (hd : s.configWillFail = false) :
      Moves s (queueBringUp (s.afterConfig (ctrlSet s.handle) .output .none .off))
  | ctrlFailed (hp : s.phase = .config .cf2) (hd : s.configWillFail = true) :
      Moves s (s.afterFailedConfig (ctrlSet s.handle))
  | wb0 (hp : s.phase = .waitBusy .wb0) (hd : s.configWillFail = false) :
      Moves s ((s.afterConfig (dataSet s.handle) .input .none .off).goto (.waitBusy .wb1))
  | wb1 (hp : s.phase = .waitBusy .wb1) (hm : s.modeOf s.handle.rsPin = .output) :
      Moves s ((s.afterWrite s.handle.rsPin false).goto (.waitBusy .wb2))
  | wb2 (hp : s.phase = .waitBusy .wb2) (hm : s.modeOf s.handle.rwPin = .output) :
      Moves s ((s.afterWrite s.handle.rwPin true).goto (.waitBusy .wb3))
  | wb3 (hp : s.phase = .waitBusy .wb3) (hm : s.modeOf s.handle.enPin = .output) :
      Moves s ((clearPolls (s.afterWrite s.handle.enPin true)).goto (.waitBusy .wb4))
  | wb4Busy (p : PinId) (hp : s.phase = .waitBusy .wb4) (hb : bfPin s.handle = some p) (hm : s.modeOf p = .input)
      (hv : s.nextLevel p = true) (hl : s.params.pollLimit ≠ some (pollsAfterSample s)) :
      Moves s ((s.afterRead p).withSample true (pollsAfterSample s) false)
  | wb4Ready (p : PinId) (hp : s.phase = .waitBusy .wb4) (hb : bfPin s.handle = some p) (hm : s.modeOf p = .input)
      (hv : s.nextLevel p = false) :
      Moves s (((s.afterRead p).withSample false (pollsAfterSample s) false).goto (.waitBusy .wb5))
  | wb4TimesOut (p : PinId) (hp : s.phase = .waitBusy .wb4) (hb : bfPin s.handle = some p) (hm : s.modeOf p = .input)
      (hv : s.nextLevel p = true) (hl : s.params.pollLimit = some (pollsAfterSample s)) :
      Moves s (((s.afterRead p).withSample true (pollsAfterSample s) true).goto (.waitBusy .wb5))
  | wb5 (hp : s.phase = .waitBusy .wb5) (hm : s.modeOf s.handle.enPin = .output) :
      Moves s ((s.afterWrite s.handle.enPin false).goto (.waitBusy .wb6))
  | wb6TimedOut (hp : s.phase = .waitBusy .wb6) (ht : s.timedOut = true) (hd : s.configWillFail = false) :
      Moves s (raiseTimeoutError (s.afterConfig (dataSet s.handle) .output .none .off))
  | wb6Byte (hp : s.phase = .waitBusy .wb6) (ht : s.timedOut = false) (hc : s.cmd = .init ∨ s.cmd = .send)
      (hd : s.configWillFail = false) :
      Moves s (beginAddressPhase (s.afterConfig (dataSet s.handle) .output .none .off))
  | wb6Done (hp : s.phase = .waitBusy .wb6) (ht : s.timedOut = false) (hc : s.cmd = .waitReady ∨ s.cmd = .none)
      (hd : s.configWillFail = false) :
      Moves s (completeCommand (s.afterConfig (dataSet s.handle) .output .none .off))
  | ap0 (hp : s.phase = .addressPhase .ap0) (hm : s.modeOf s.handle.rsPin = .output) :
      Moves s ((s.afterWrite s.handle.rsPin (rsLevel s.curI)).goto (.addressPhase .ap1))
  | ap1 (hp : s.phase = .addressPhase .ap1) (hm : s.modeOf s.handle.rwPin = .output) :
      Moves s ((s.afterWrite s.handle.rwPin false).goto .dataDrive)
  | dd0 (hp : s.phase = .dataDrive) (hS : ∀ p ∈ s.setMask, s.modeOf p = .output)
      (hC : ∀ p ∈ s.clrMask, s.modeOf p = .output) :
      Moves s ((s.afterSetClear s.setMask s.clrMask).goto (.strobe .st0))
  | st0 (hp : s.phase = .strobe .st0) (hm : s.modeOf s.handle.enPin = .output) :
      Moves s ((s.afterWrite s.handle.enPin true).goto (.strobe .st1))
  | st1More (hp : s.phase = .strobe .st1) (hm : s.modeOf s.handle.enPin = .output) (hq : s.queue ≠ []) :
      Moves s ((s.afterWrite s.handle.enPin false).goto .idle)
  | st1Done (hp : s.phase = .strobe .st1) (hm : s.modeOf s.handle.enPin = .output) (hq : s.queue = []) :
      Moves s (completeCommand (s.afterWrite s.handle.enPin false))

/-- A `SEND` accepted with no bytes has completed (42_send.md R142). -/
theorem startSend_nil (f : Bool) (s : State) : startSend f [] s = completeCommand (loadSend f [] s) := rfl

/-- A `SEND` accepted with bytes starts the first one. -/
theorem startSend_cons (f : Bool) (b : Byte) (bs : List Byte) (s : State) :
    startSend f (b :: bs) s = loadByte b bs (loadSend f (b :: bs) s) := rfl

/-- An accepted command moves the block as `Moves` says. -/
theorem exec_idle_moves {s t : State} {i : Instr} {rest : List PortWord} (hp : s.phase = .idle)
    (hw : decodePort s.port = .instr i rest) (h : exec i (s.withPort rest) = .next t) : Moves s t := by
  have busy := exec_busCycle_refused (s.withPort rest) (by simp [hp, InWriteCycle]) (by simp [hp])
  cases i with
  | init =>
    rw [exec_init] at h
    obtain ⟨hok, hf, -, hc, -, rfl⟩ := accept_next h
    exact .acceptsInit rest hok hf hp hc hw
  | waitReady =>
    rw [exec_waitReady] at h
    obtain ⟨hok, hf, -, hc, hi, rfl⟩ := accept_next h
    exact .acceptsWait rest hok hf hp hc (hi rfl) hw
  | send f bytes =>
    rw [exec_send] at h
    obtain ⟨hok, hf, -, hc, hi, rfl⟩ := accept_next h
    cases bytes with
    | nil => exact .acceptsEmpty rest f hok hf hp hc (hi rfl) hw
    | cons b bs => exact .acceptsSend rest f b bs hok hf hp hc (hi rfl) (.inl hw)
  | sendSingle f b =>
    rw [exec_sendSingle] at h
    obtain ⟨hok, hf, -, hc, hi, rfl⟩ := accept_next h
    exact .acceptsSend rest f b [] hok hf hp hc (hi rfl) (.inr ⟨rfl, .inl hw⟩)
  | clear =>
    rw [exec_clear] at h
    obtain ⟨hok, hf, -, hc, hi, rfl⟩ := accept_next h
    exact .acceptsSend rest true _ [] hok hf hp hc (hi rfl) (.inr ⟨rfl, .inr ⟨rfl, rfl, hw⟩⟩)
  | irWrite => rw [busy.1] at h; cases h
  | drWrite => rw [busy.2.1] at h; cases h
  | busyRead => rw [busy.2.2] at h; cases h

/-- In the fault state no instruction runs (60_exceptions.md R195). -/
theorem exec_fault_ne_next {s t : State} (hp : s.phase = .fault) (i : Instr) : exec i s ≠ .next t := by
  have no : ∀ needs k, accept needs k s ≠ .next t := fun needs k h => by
    have := (accept_next h).2.2.1; rw [hp] at this; cases this
  have busy := exec_busCycle_refused s (by simp [hp, InWriteCycle]) (by simp [hp])
  cases i with
  | init => exact no _ _
  | waitReady => exact no _ _
  | send f bytes => exact no _ _
  | sendSingle f b => exact no _ _
  | clear => exact no _ _
  | irWrite => rw [busy.1]; simp
  | drWrite => rw [busy.2.1]; simp
  | busyRead => rw [busy.2.2]; simp

theorem step_fault {s : State} (hp : s.phase = .fault) :
    step s = match decodePort s.port with
      | .instr i rest => exec i (s.withPort rest)
      | .incomplete | .rejected _ => .fault (.stopped s.fault) := by
  unfold step fetch fetchInFault; rw [hp]; dsimp only
  cases decodePort s.port <;> rfl

/-- A sample goes one of three ways (41_wait_ready.md R124, R130). -/
theorem takeSample_moves {s : State} {p : PinId} (hp : s.phase = .waitBusy .wb4) (hb : bfPin s.handle = some p)
    (hm : s.modeOf p = .input) : Moves s (takeSample (s.nextLevel p) (s.afterRead p)) := by
  have hpa : pollsAfterSample (s.afterRead p) = pollsAfterSample s := rfl
  have hl' : (s.afterRead p).params = s.params := rfl
  unfold takeSample
  cases hv : s.nextLevel p with
  | false => simpa [sampleTimesOut, hpa] using Moves.wb4Ready p hp hb hm hv
  | true =>
    by_cases hl : s.params.pollLimit = some (pollsAfterSample s)
    · simpa [sampleTimesOut, hpa, hl', hl] using Moves.wb4TimesOut p hp hb hm hv hl
    · have e : State.goto (.waitBusy .wb4) ((s.afterRead p).withSample true (pollsAfterSample s) false) =
          (s.afterRead p).withSample true (pollsAfterSample s) false := by
        simp [State.goto, State.withSample, hp]
      simpa [sampleTimesOut, hpa, hl', hl, e] using Moves.wb4Busy p hp hb hm hv hl

/-- The end of a handshake goes one of the three ways of 10_state.md R20. -/
theorem afterHandshake_moves {s : State} (hp : s.phase = .waitBusy .wb6) (hd : s.configWillFail = false) :
    Moves s (afterHandshake (s.afterConfig (dataSet s.handle) .output .none .off)) := by
  have hc : (s.afterConfig (dataSet s.handle) .output .none .off).cmd = s.cmd := rfl
  unfold afterHandshake
  cases ht : (s.afterConfig (dataSet s.handle) .output .none .off).timedOut with
  | true => exact .wb6TimedOut hp ht hd
  | false =>
    cases h : s.cmd <;> rw [hc, h]
    · exact .wb6Done hp ht (.inr h) hd
    · exact .wb6Byte hp ht (.inl h) hd
    · exact .wb6Done hp ht (.inl h) hd
    · exact .wb6Byte hp ht (.inr h) hd

/-- A step that answers a next state goes one of the ways of `Moves`. -/
theorem step_moves {s t : State} (h : step s = .next t) : Moves s t := by
  cases hp : s.phase with
  | idle =>
    by_cases hc : s.cmd = .none
    · rw [step_idle hp hc] at h
      cases hd : decodePort s.port with
      | instr i rest => rw [hd] at h; exact exec_idle_moves hp hd h
      | incomplete => rw [hd] at h; cases h; exact .waits hp hc hd
      | rejected why => rw [hd] at h; cases h
    · rw [step_between hp hc] at h
      cases h
      cases hq : s.queue with
      | nil => rw [beginByte_nil hq]; exact .nothingLeft hp hc hq
      | cons b bs => rw [beginByte_cons hq]; exact .nextByte b bs hp hc hq
  | config c =>
    rw [step_config hp] at h
    cases c with
    | cf0 =>
      simp only [configStep, Host.Outcome.next.injEq] at h
      split at h <;> subst h
      · exact .widthOk hp ‹_›
      · exact .widthBad hp ‹_›
    | cf1 =>
      rcases pinConfig_next h with ⟨hd, rfl⟩ | ⟨hd, rfl⟩
      · exact .dataFailed _ (by simp) hp hd
      · exact .dataConfigured hp hd
    | cf2 =>
      simp only [configStep] at h
      rcases pinConfig_next h with ⟨hd, rfl⟩ | ⟨hd, rfl⟩
      · exact .ctrlFailed hp hd
      · exact .ctrlConfigured hp hd
  | waitBusy b =>
    rw [step_waitBusy hp] at h
    cases b with
    | wb0 =>
      rcases pinConfig_next h with ⟨hd, rfl⟩ | ⟨hd, rfl⟩
      · exact .dataFailed _ (by simp) hp hd
      · exact .wb0 hp hd
    | wb1 => obtain ⟨hm, rfl⟩ := pinWrite_next h; exact .wb1 hp hm
    | wb2 => obtain ⟨hm, rfl⟩ := pinWrite_next h; exact .wb2 hp hm
    | wb3 => simp only [busyReadStep] at h; obtain ⟨hm, rfl⟩ := pinWrite_next h; exact .wb3 hp hm
    | wb4 =>
      simp only [busyReadStep] at h
      split at h
      next p hb => obtain ⟨hm, rfl⟩ := pinRead_next h; exact takeSample_moves hp hb hm
      · cases h
    | wb5 => obtain ⟨hm, rfl⟩ := pinWrite_next h; exact .wb5 hp hm
    | wb6 =>
      rcases pinConfig_next h with ⟨hd, rfl⟩ | ⟨hd, rfl⟩
      · exact .dataFailed _ (by simp) hp hd
      · exact afterHandshake_moves hp hd
  | addressPhase a =>
    rw [step_writeCycle (by rw [hp]; trivial)] at h
    cases a <;> simp only [writeCycleStep, hp] at h <;> obtain ⟨hm, rfl⟩ := pinWrite_next h
    · exact .ap0 hp hm
    · exact .ap1 hp hm
  | dataDrive =>
    rw [step_writeCycle (by rw [hp]; trivial)] at h
    simp only [writeCycleStep, hp] at h
    obtain ⟨hS, hC, rfl⟩ := pinSetClear_next h
    exact .dd0 hp hS hC
  | strobe a =>
    rw [step_writeCycle (by rw [hp]; trivial)] at h
    cases a <;> simp only [writeCycleStep, hp] at h <;> obtain ⟨hm, rfl⟩ := pinWrite_next h
    · exact .st0 hp hm
    · by_cases hq : s.queue = []
      · rw [endByte_nil (s := s.afterWrite s.handle.enPin false) hq]; exact .st1Done hp hm hq
      · rw [endByte_of_ne (s := s.afterWrite s.handle.enPin false) hq]; exact .st1More hp hm hq
  | fault =>
    rw [step_fault hp] at h
    cases hd : decodePort s.port with
    | instr i rest => rw [hd] at h; exact absurd h (exec_fault_ne_next (s := s.withPort rest) hp i)
    | incomplete => rw [hd] at h; cases h
    | rejected why => rw [hd] at h; cases h

end Sys2Proof.Machine
end

