-- ==== Sys2Proof/Laws/Progress.lean ====
section
/-! SUPPORT. Progress: how much the block has still to do, which every step lessens but a wait for a command and a sample of
1 (70_reset_and_hazards.md R222: "every loop other than the sampling loop is bounded by the finite length of `QUEUE`"). -/

namespace Sys2Proof.Machine

/-- A bound on the steps from a phase to the end of its byte; a configuration is above four bytes. -/
def phaseWork (c : Cmd) : Phase → Nat
  | .idle => if c = .none then 0 else 1
  | .config .cf0 => 102
  | .config .cf1 => 101
  | .config .cf2 => 100
  | .waitBusy .wb0 => 13
  | .waitBusy .wb1 => 12
  | .waitBusy .wb2 => 11
  | .waitBusy .wb3 => 10
  | .waitBusy .wb4 => 9
  | .waitBusy .wb5 => 8
  | .waitBusy .wb6 => 7
  | .addressPhase .ap0 => 6
  | .addressPhase .ap1 => 5
  | .dataDrive => 4
  | .strobe .st0 => 3
  | .strobe .st1 => 2
  | .fault => 0

/-- What the block has still to do: the items on its port, the bytes queued, and the rest of the current byte. -/
def State.work (s : State) : Nat := 200 * s.port.length + 20 * s.queue.length + phaseWork s.cmd s.phase

/-- A command taken off the port leaves less there: its header, and a beat for each byte of a `SEND`. -/
theorem decodePort_length {ws rest : List PortWord} {i : Instr} (h : decodePort ws = .instr i rest) :
    rest.length + 1 ≤ ws.length ∧ ∀ f bytes, i = .send f bytes → rest.length + 1 + bytes.length = ws.length := by
  match ws with
  | [] => cases h
  | .beat _ :: _ => cases h
  | .header w :: ws =>
    simp only [decodePort] at h
    split at h
    · cases h; simp
    · cases h; simp
    · obtain ⟨bytes, hl, rfl, rfl⟩ := decodePayload_inv h
      simp only [List.length_cons, List.length_append, List.length_map, Instr.send.injEq, List.reverse_nil,
        List.nil_append]
      exact ⟨by omega, fun _ bs e => by rw [← e.2]; omega⟩
    · cases h; simp
    · cases h; simp
    · cases h

/-- A step lessens the work, unless it waits for a command or takes a sample of 1 at `WB4`, which only reads. -/
theorem step_progress {s t : State} (h : step s = .next t) :
    AwaitsCommand s ∧ t = s ∨
    (s.phase = .waitBusy .wb4 ∧ ∃ p, bfPin s.handle = some p ∧ s.nextLevel p = true ∧
      t = (s.afterRead p).withSample true (pollsAfterSample s) false) ∨
    t.work < s.work := by
  cases step_moves h with
  | waits hp hc hw => exact .inl ⟨⟨hp, hc, hw⟩, rfl⟩
  | wb4Busy p hp hb hm hv hl => exact .inr (.inl ⟨hp, p, hb, hv, rfl⟩)
  | acceptsInit rest hok hf hp hc hw =>
    have := (decodePort_length hw).1
    right; right; simp [State.work, phaseWork, hp, hc]; omega
  | acceptsWait rest hok hf hp hc hi hw =>
    have := (decodePort_length hw).1
    right; right; simp [State.work, phaseWork, hp, hc]; omega
  | acceptsEmpty rest f hok hf hp hc hi hw =>
    have := (decodePort_length hw).1
    right; right; simp [State.work, phaseWork, hp, hc]; omega
  | acceptsSend rest f b bs hok hf hp hc hi hw =>
    right; right
    have : rest.length + 1 + bs.length ≤ s.port.length := by
      rcases hw with hw | ⟨rfl, hw | ⟨-, -, hw⟩⟩
      · have := (decodePort_length hw).2 f _ rfl; simp at this; omega
      · exact (decodePort_length hw).1
      · exact (decodePort_length hw).1
    simp [State.work, phaseWork, hp, hc]; omega
  | nextByte b bs hp hc hq => right; right; simp [State.work, phaseWork, hp, hc, hq]; omega
  | nothingLeft hp hc hq => right; right; simp [State.work, phaseWork, hp, hc, hq]
  | dataFailed b hb hp hd => right; right; rcases hb with rfl | rfl | rfl <;> simp [State.work, phaseWork, hp] <;> omega
  | wb3 hp hm => right; right; simp [State.work, phaseWork, hp]
  | ctrlConfigured hp hd =>
    right; right; by_cases hc : s.cmd = .none <;> simp [State.work, phaseWork, hp, hc, bringUpBytes] <;> omega
  | st1More hp hm hq => right; right; by_cases hc : s.cmd = .none <;> simp [State.work, phaseWork, hp, hc]
  | _ => right; right; simp [State.work, phaseWork, *] <;> omega

/-! ### Runs that hang -/

/-- The step of a block that waits for a command changes nothing. -/
theorem step_of_awaits {s : State} (h : AwaitsCommand s) : step s = .next s := by
  rw [step_idle h.1 h.2.1, h.2.2]

theorem RunHangs.not_awaits {s : State} (h : RunHangs s) : ¬ AwaitsCommand s := by
  obtain ⟨t, ht, hn⟩ := h 0; cases ht; exact hn

/-- What a run that hangs comes to hangs. -/
theorem RunHangs.of_run {j : Nat} {s t : State} (h : RunHangs s) (hr : run j s = .next t) : RunHangs t := fun k => by
  obtain ⟨u, hu, hn⟩ := h (j + k)
  exact ⟨u, by rw [← run_add hr]; exact hu, hn⟩

/-- A run that hangs goes on. -/
theorem RunHangs.next {s : State} (h : RunHangs s) : ∃ t, step s = .next t ∧ RunHangs t := by
  obtain ⟨u, hu, -⟩ := h 1
  obtain ⟨v, hv, -⟩ := run_succ_next hu
  exact ⟨v, hv, h.of_run (run_one hv)⟩

end Sys2Proof.Machine
end

