-- ==== Sys2Proof/Laws/SubSteps.lean ====
section
/-! SUPPORT. Each sub-step of the sequencer forwards: under what it needs, the state it leaves. `Moves` in Step.lean is the
other direction. -/

namespace Sys2Proof.Machine

variable {s : State}

/-! ### The configuration of `INIT` -/

theorem step_cf0 (hp : s.phase = .config .cf0) (hl : legalWidth s.handle) : step s = .next (s.goto (.config .cf1)) := by
  rw [step_config hp, configStep, if_pos hl]

theorem step_cf0_bad (hp : s.phase = .config .cf0) (hl : ¬ legalWidth s.handle) :
    step s = .next (raiseConfigurationError .badWidth s) := by
  rw [step_config hp, configStep, if_neg hl]

theorem step_cf1 (hp : s.phase = .config .cf1) (hf : s.configWillFail = false) :
    step s = .next ((s.afterConfig (dataSet s.handle) .output .none .off).goto (.config .cf2)) := by
  rw [step_config hp, configStep, pinConfig_of_ok hf]

theorem step_cf2 (hp : s.phase = .config .cf2) (hf : s.configWillFail = false) :
    step s = .next (queueBringUp (s.afterConfig (ctrlSet s.handle) .output .none .off)) := by
  rw [step_config hp, configStep, pinConfig_of_ok hf]

theorem step_next_byte {b : Byte} {bs : List Byte} (hp : s.phase = .idle) (hc : s.cmd ≠ .none) (hq : s.queue = b :: bs) :
    step s = .next (loadByte b bs s) := by
  rw [step_between hp hc, beginByte_cons hq]

/-! ### `BUSY_READ` -/

theorem exec_busyRead {b : BusyStep} (hp : s.phase = .waitBusy b) : exec .busyRead s = busyReadStep b s := by
  simp [exec, execBusyRead, hp]

theorem busyRead_wb0 (hf : s.configWillFail = false) :
    busyReadStep .wb0 s = .next ((s.afterConfig (dataSet s.handle) .input .none .off).goto (.waitBusy .wb1)) := by
  rw [busyReadStep, pinConfig_of_ok hf]

theorem busyRead_wb1 (hm : s.modeOf s.handle.rsPin = .output) :
    busyReadStep .wb1 s = .next ((s.afterWrite s.handle.rsPin false).goto (.waitBusy .wb2)) := by
  rw [busyReadStep, pinWrite_of_output hm]

theorem busyRead_wb2 (hm : s.modeOf s.handle.rwPin = .output) :
    busyReadStep .wb2 s = .next ((s.afterWrite s.handle.rwPin true).goto (.waitBusy .wb3)) := by
  rw [busyReadStep, pinWrite_of_output hm]

theorem busyRead_wb3 (hm : s.modeOf s.handle.enPin = .output) :
    busyReadStep .wb3 s = .next ((clearPolls (s.afterWrite s.handle.enPin true)).goto (.waitBusy .wb4)) := by
  rw [busyReadStep, pinWrite_of_output hm]

theorem busyRead_wb4 {p : PinId} (hb : bfPin s.handle = some p) (hm : s.modeOf p = .input) :
    busyReadStep .wb4 s = .next (takeSample (s.nextLevel p) (s.afterRead p)) := by
  simp only [busyReadStep, hb, pinRead_of_input hm]

theorem busyRead_wb5 (hm : s.modeOf s.handle.enPin = .output) :
    busyReadStep .wb5 s = .next ((s.afterWrite s.handle.enPin false).goto (.waitBusy .wb6)) := by
  rw [busyReadStep, pinWrite_of_output hm]

theorem busyRead_wb6 (hf : s.configWillFail = false) :
    busyReadStep .wb6 s = .next (afterHandshake (s.afterConfig (dataSet s.handle) .output .none .off)) := by
  rw [busyReadStep, pinConfig_of_ok hf]

/-! ### The write cycles -/

theorem exec_irWrite (h : s.curI = true) : exec .irWrite s = writeCycleStep false s := by
  simp [exec, execIrWrite, h, rsLevel]

theorem exec_drWrite (h : s.curI = false) : exec .drWrite s = writeCycleStep true s := by
  simp [exec, execDrWrite, h, rsLevel]

variable {rs : Level}

theorem writeCycle_ap0 (hp : s.phase = .addressPhase .ap0) (hm : s.modeOf s.handle.rsPin = .output) :
    writeCycleStep rs s = .next ((s.afterWrite s.handle.rsPin rs).goto (.addressPhase .ap1)) := by
  simp only [writeCycleStep, hp, pinWrite_of_output hm]

theorem writeCycle_ap1 (hp : s.phase = .addressPhase .ap1) (hm : s.modeOf s.handle.rwPin = .output) :
    writeCycleStep rs s = .next ((s.afterWrite s.handle.rwPin false).goto .dataDrive) := by
  simp only [writeCycleStep, hp, pinWrite_of_output hm]

theorem writeCycle_dd0 (hp : s.phase = .dataDrive) (hS : ∀ p ∈ s.setMask, s.modeOf p = .output)
    (hC : ∀ p ∈ s.clrMask, s.modeOf p = .output) :
    writeCycleStep rs s = .next ((s.afterSetClear s.setMask s.clrMask).goto (.strobe .st0)) := by
  simp only [writeCycleStep, hp, pinSetClear_of_outputs hS hC]

theorem writeCycle_st0 (hp : s.phase = .strobe .st0) (hm : s.modeOf s.handle.enPin = .output) :
    writeCycleStep rs s = .next ((s.afterWrite s.handle.enPin true).goto (.strobe .st1)) := by
  simp only [writeCycleStep, hp, pinWrite_of_output hm]

theorem writeCycle_st1 (hp : s.phase = .strobe .st1) (hm : s.modeOf s.handle.enPin = .output) :
    writeCycleStep rs s = .next (endByte (s.afterWrite s.handle.enPin false)) := by
  simp only [writeCycleStep, hp, pinWrite_of_output hm]

end Sys2Proof.Machine
end

