-- ==== Sys2Proof/Tests/Slice0.lean ====
section
/-! SUPPORT. Tests: the well-formedness smoke test, the words of the spec's tables, single steps against the vectors of
95_test_vectors.md, and for every obligation that has hypotheses a named witness that meets them together. -/

namespace Sys2Proof.Tests

open Sys2Proof Sys2Proof.Machine

/-! ### Well-formedness -/

/-- 30_encoding.md R73: `LEN` is 16 bits wide, so 65536 bytes have no encoding and 65535 have. -/
theorem test_wellFormed_bounds_send :
    (Instr.send false (List.replicate 65536 0#8)).wellFormed = false ∧
      (Instr.send false (List.replicate 65535 0#8)).wellFormed = true := by
  simp only [Instr.wellFormed, List.length_replicate]
  decide

/-- 30_encoding.md R142: no bytes is well-formed; the other forms have no operand to check. -/
theorem test_wellFormed_others : (Instr.send true []).wellFormed = true ∧ (Instr.sendSingle true 0xFF#8).wellFormed = true ∧
    Instr.init.wellFormed = true ∧ Instr.busyRead.wellFormed = true := by decide

/-! ### Decoding, by words written out from the spec's encodings (30_encoding.md R71 to R76, 95_test_vectors.md V10) -/

theorem test_decode_init : decodePort [.header 0b0001_00000000000_0_0000000000000000#32] = .instr .init [] := by decide
theorem test_decode_waitReady :
    decodePort [.header 0b0010_00000000000_0_0000000000000000#32] = .instr .waitReady [] := by decide
theorem test_decode_send :
    decodePort [.header 0b0011_00000000000_0_0000000000000010#32, .beat 0x48#8, .beat 0x69#8] =
      .instr (.send false [0x48#8, 0x69#8]) [] := by decide
theorem test_decode_send_leaves_the_rest :
    decodePort [.header 0x30010001#32, .beat 0x38#8, .header 0x10000000#32] =
      .instr (.send true [0x38#8]) [.header 0x10000000#32] := by decide
theorem test_decode_sendSingle :
    decodePort [.header 0b0100_00000000000_1_00000000_00111000#32] = .instr (.sendSingle true 0x38#8) [] := by decide
theorem test_decode_clear : decodePort [.header 0b0101_00000000000_0_0000000000000000#32] = .instr .clear [] := by decide
theorem test_decode_busCycles : decode (.bus 0b00#2) = .instr .irWrite [] ∧ decode (.bus 0b10#2) = .instr .drWrite [] ∧
    decode (.bus 0b01#2) = .instr .busyRead [] := by decide
theorem test_decode_reserved :
    decodePort [.header 0x00000000#32] = .rejected .reservedOpcode ∧
    decodePort [.header 0x60000000#32] = .rejected .reservedOpcode ∧
    decodePort [.header 0xF0000000#32] = .rejected .reservedOpcode ∧
    decodePort [.header 0x10010000#32] = .rejected .flagOnPlainCommand ∧
    decodePort [.header 0x50000001#32] = .rejected .argumentOnPlainCommand ∧
    decodePort [.header 0x40010138#32] = .rejected .argumentHighByteSet ∧
    decodePort [.header 0x30020001#32] = .rejected .zeroFieldSet ∧
    decodePort [.header 0x38000001#32] = .rejected .zeroFieldSet ∧
    decode (.bus 0b11#2) = .rejected .reservedBusCycle := by decide
theorem test_decode_incomplete : decodePort [] = .incomplete ∧
    decodePort [.header 0x30000002#32, .beat 0x48#8] = .incomplete := by decide
theorem test_encode_send :
    encode (.send true [0x38#8]) = .port [.header 0x30010001#32, .beat 0x38#8] ∧
      encode (.sendSingle false 0x41#8) = .port [.header 0x40000041#32] := by decide
theorem test_decodeTableWord_commands :
    decodeTableWord 32 0x10000000 = some .init ∧ decodeTableWord 32 0x20000000 = some .waitReady ∧
    decodeTableWord 32 0x30010002 = some (.send true [0#8, 0#8]) ∧
    decodeTableWord 48 0x694830000002 = some (.send false [0x48#8, 0x69#8]) ∧
    decodeTableWord 32 0x40010038 = some (.sendSingle true 0x38#8) ∧ decodeTableWord 32 0x50000000 = some .clear := by
  decide
theorem test_decodeTableWord_busCycles :
    decodeTableWord 8 0 = some .irWrite ∧ decodeTableWord 8 2 = some .drWrite ∧ decodeTableWord 8 1 = some .busyRead ∧
    decodeTableWord 8 3 = none ∧ decodeTableWord 8 4 = none := by decide

/-! ### Masks (95_test_vectors.md V2, V3) -/

/-- The handle H4 of 95_test_vectors.md. -/
def h4 : Handle where
  rsPin := 10
  rwPin := 11
  enPin := 12
  busWidth := 4
  dataPins := [2, 3, 4, 5]

/-- The handle HX of 95_test_vectors.md, with unordered pins. -/
def hx : Handle where
  rsPin := 0
  rwPin := 1
  enPin := 2
  busWidth := 4
  dataPins := [13, 4, 27, 5]

theorem test_masks_8 : maskNumber (setMaskOf Config.handle 0x38#8) = 0x0E0 ∧
    maskNumber (clrMaskOf Config.handle 0x38#8) = 0x31C ∧ maskNumber (setMaskOf Config.handle 0x80#8) = 0x200 ∧
    setMaskOf Config.handle 0x00#8 = [] ∧ clrMaskOf Config.handle 0xFF#8 = [] := by decide
theorem test_masks_4 : maskNumber (setMaskOf h4 0xF3#8) = 0x00C ∧ maskNumber (clrMaskOf h4 0xF3#8) = 0x030 ∧
    setMaskOf h4 0x80#8 = [] ∧ maskNumber (clrMaskOf h4 0x80#8) = 0x03C := by decide
theorem test_masks_unordered : setMaskOf hx 0x0A#8 = [4, 5] ∧ maskNumber (clrMaskOf hx 0x0A#8) = 0x8002000 ∧
    bfPin hx = some 5 := by decide

/-! ### Small states on the handle H8 -/

/-- Example parameters: the values that 93_implementation_defined.md G1 names, used by 95_test_vectors.md P3. -/
def exampleParams : Params where
  clearInstruction := 0x01#8
  initFunctionSet4 := 0x28#8
  initFunctionSet8 := 0x38#8
  initDisplayControl4 := 0x0C#8
  initDisplayControl8 := 0x0C#8
  initEntryMode4 := 0x06#8
  initEntryMode8 := 0x06#8
  pollLimit := none

def outPin (v : Level) : Pin where
  mode := .output
  pull := .none
  intr := .off
  latch := v

def inPin (v : Level) : Pin where
  mode := .input
  pull := .none
  intr := .off
  latch := v

def unusedPin : Pin where
  mode := .unconf
  pull := .up
  intr := .on
  latch := true

/-- The pins of H8: data pins of the given kind holding `0x06`, control pins driven at the given levels. -/
def pins8 (data : Level → Pin) (rs rw en : Level) : PinSpace :=
  [unusedPin, unusedPin, data false, data true, data true, data false, data false, data false, data false, data false,
    outPin rs, outPin rw, outPin en]

/-- A state on H8 after a completed `INIT`, standing at a sub-step. -/
def at8 (phase : Phase) (cmd : Cmd) (data : Level → Pin) (rs rw en : Level) : State :=
  { State.construct Config.handle exampleParams 13 with
    pins := pins8 data rs rw en, phase := phase, cmd := cmd, inited := true, curByte := 0x06#8, curI := true,
    setMask := [3, 4], clrMask := [2, 5, 6, 7, 8, 9], samples := [true, true, false], cfgFails := [false, false] }

/-- READY8 of 95_test_vectors.md. -/
def ready8 : State := at8 .idle .none outPin false false false

def wb0 : State := at8 (.waitBusy .wb0) .waitReady outPin false false false
def wb1 : State := at8 (.waitBusy .wb1) .send inPin false false false
def wb2 : State := at8 (.waitBusy .wb2) .send inPin false false false
def wb3 : State := at8 (.waitBusy .wb3) .send inPin false true false
def wb4 : State := at8 (.waitBusy .wb4) .send inPin false true true
def wb5 : State := at8 (.waitBusy .wb5) .send inPin false true true
def wb6 : State := at8 (.waitBusy .wb6) .send inPin false true false
def ap0 : State := at8 (.addressPhase .ap0) .send outPin false true false
def ap1 : State := at8 (.addressPhase .ap1) .send outPin false true false
def dd0 : State := at8 .dataDrive .send outPin false false false
def st0 : State := at8 (.strobe .st0) .send outPin false false false
def st1 : State := at8 (.strobe .st1) .send outPin false false true

/-- READY8 with an environment that answers a whole `INIT`. -/
def initReady : State :=
  { ready8 with samples := responsiveSamples [0, 1, 0, 0], cfgFails := List.replicate 10 false }

/-- The last sub-step of an `INIT`. -/
def initEnd : State := { st1 with cmd := .init, inited := false }

/-- The first configuration call of an `INIT`, which will fail. -/
def configFails : State := { ready8 with phase := .config .cf1, cmd := .init, cfgFails := [true] }

/-- The state after a `ConfigurationError`. -/
def faulted : State := { ready8 with phase := .fault, fault := some .gpioConfig }

/-- H8 with `BUS_WIDTH = 5`, right after reset (95_test_vectors.md V7). -/
def badWidth : State := { State.construct Config.handle exampleParams 13 with handle := { Config.handle with busWidth := 5 } }

/-- The next state of an outcome. -/
def nextOf (r : Result) : Option State :=
  match r with
  | .next t => some t
  | .fault _ | .refused _ => none

/-- Why an outcome was refused. -/
def refusalIn (r : Result) : Option Refusal :=
  match r with
  | .refused why => some why
  | .next _ | .fault _ => none

theorem next_of_nextOf {r : Result} (h : (nextOf r).isSome = true) : ∃ t, r = .next t := by
  cases r with
  | next t => exact ⟨t, rfl⟩
  | fault r => cases h
  | refused r => cases h

/-! ### The commands: one step each -/

/-- 40_initialize.md R100. -/
theorem test_init_starts_configuration :
    (nextOf (exec .init ready8)).map (fun t => (t.cmd, t.phase)) = some (.init, .config .cf0) := by decide
/-- 95_test_vectors.md V7, first row: the width test comes before any pin. -/
theorem test_init_bad_width :
    (nextOf (run 1 { badWidth with cmd := .init, phase := .config .cf0 })).map (fun t => (t.fault, t.phase, t.trace)) =
      some (some .badWidth, .fault, []) := by decide
/-- 41_wait_ready.md R120. -/
theorem test_waitReady_starts_handshake :
    (nextOf (exec .waitReady ready8)).map (fun t => (t.cmd, t.phase)) = some (.waitReady, .waitBusy .wb0) := by decide
/-- 10_state.md R24, 95_test_vectors.md V9. -/
theorem test_waitReady_refused_before_init :
    refusalIn (exec .waitReady State.reset) = some .notInitialised := by decide
/-- 42_send.md R141. -/
theorem test_send_takes_first_byte :
    (nextOf (exec (.send false [0x48#8, 0x69#8]) ready8)).map (fun t => (t.curByte, t.queue, t.curI, t.phase)) =
      some (0x48#8, [0x69#8], false, .waitBusy .wb0) := by decide
/-- 42_send.md R142, 95_test_vectors.md V5. -/
theorem test_send_empty :
    (nextOf (exec (.send true []) ready8)).map (fun t => (t.trace, t.phase, t.cmd)) = some ([], .idle, .none) := by decide
/-- 42_send.md R155. -/
theorem test_sendSingle :
    (nextOf (exec (.sendSingle true 0x38#8) ready8)).map (fun t => (t.cmd, t.curByte, t.queue, t.curI)) =
      some (.send, 0x38#8, [], true) := by decide
/-- 60_exceptions.md R204, 95_test_vectors.md V9: presented while `PHASE = WAIT_BUSY`. -/
theorem test_sendSingle_refused_while_busy : refusalIn (exec (.sendSingle true 0x38#8) wb4) = some .busy := by decide
/-- 42_send.md R156 with the example value of `CLEAR_INSTRUCTION`. -/
theorem test_clear :
    (nextOf (exec .clear ready8)).map (fun t => (t.cmd, t.curByte, t.queue, t.curI)) = some (.send, 0x01#8, [], true) := by
  decide
/-- 95_test_vectors.md V9: a handle with `RS_PIN = RW_PIN = 10`. -/
theorem test_clear_refused_on_a_repeated_pin :
    refusalIn (exec .clear { ready8 with handle := { Config.handle with rwPin := 10 } }) = some .malformedHandle := by
  decide

/-! ### The bus cycles: one sub-step each -/

/-- 95_test_vectors.md V1, event 12: the masks of `0x38` and what the latches become. -/
theorem test_irWrite_drives_data :
    (nextOf (exec .irWrite { dd0 with curByte := 0x38#8, setMask := [5, 6, 7], clrMask := [2, 3, 4, 8, 9] })).map
      (fun t => (t.trace, t.pins.map Pin.latch)) =
    some ([.sc [5, 6, 7] [2, 3, 4, 8, 9]],
      [true, true, false, false, false, true, true, true, false, false, false, false, false]) := by decide
/-- 95_test_vectors.md V8: an instruction byte drives register-select low. -/
theorem test_irWrite_selects_instruction_register :
    (nextOf (exec .irWrite { ap0 with pins := pins8 outPin true true false })).map (fun t => (t.trace, t.latchOf 10)) =
      some ([.w 10 false], some false) := by decide
/-- 95_test_vectors.md V8: a data byte drives register-select high. -/
theorem test_drWrite_selects_data_register :
    (nextOf (exec .drWrite { ap0 with curI := false })).map (fun t => (t.trace, t.latchOf 10)) =
      some ([.w 10 true], some true) := by decide
/-- 42_send.md R148, R149: the fall of enable ends the byte, and the next byte is due. -/
theorem test_drWrite_ends_byte :
    (nextOf (exec .drWrite { st1 with curI := false, queue := [0x69#8] })).map (fun t => (t.trace, t.phase, t.cmd)) =
      some ([.w 12 false], .idle, .send) := by decide
/-- 95_test_vectors.md V4: a sample of 1 stays at `WB4`, on pin 9. -/
theorem test_busyRead_busy :
    (nextOf (exec .busyRead wb4)).map (fun t => (t.trace, t.bf, t.phase)) =
      some ([.r 9 true], true, .waitBusy .wb4) := by decide
/-- 95_test_vectors.md V11: the third sample of 1 with `POLL_LIMIT = some 3` leaves the loop as a timeout. -/
theorem test_busyRead_times_out :
    (nextOf (exec .busyRead { wb4 with polls := 2, params := { exampleParams with pollLimit := some 3 } })).map
      (fun t => (t.polls, t.timedOut, t.phase)) = some (3, true, .waitBusy .wb5) := by decide

/-! ### From reset -/

/-- 60_exceptions.md R192: a failed configuration call is no event and faults. -/
theorem test_failed_configuration :
    (nextOf (step configFails)).map (fun t => (t.trace, t.fault, t.phase, t.reports)) =
      some ([], some .gpioConfig, .fault, [.gpioConfig]) := by decide
/-- 95_test_vectors.md V7, with the codes of 60_exceptions.md R193: a bad width is code 1. -/
theorem test_bad_width_code :
    (nextOf (run 1 { badWidth with cmd := .init, phase := .config .cf0 })).map
      (fun t => (t.faultNumber, t.reportedNumbers)) = some (some 1, [1]) := by decide
/-- 30_encoding.md R73: a block with nothing on its port waits. -/
theorem test_reset_waits : step State.reset = .next State.reset := rfl
/-- A command placed on the port is accepted by the next step (95_test_vectors.md V9, last row). -/
theorem test_placed_init_runs :
    (nextOf (step (State.reset.withFetchWord 32 0x10000000))).map (fun t => (t.cmd, t.phase)) =
      some (.init, .config .cf0) := by decide
/-- A placed bus cycle is run by the next step: a busy read begins with its configuration call. -/
theorem test_placed_busyRead_runs :
    (nextOf (step (ready8.withFetchWord 8 1))).map (fun t => (t.trace, t.phase)) =
      some ([.cfg [2, 3, 4, 5, 6, 7, 8, 9] .input], .waitBusy .wb1) := by decide

/-! ### The invariant on the states above -/

/-- The states at which the invariant is shown. -/
def invariantStates : List State :=
  [ready8, initReady, wb0, { wb0 with params := { exampleParams with pollLimit := some 1 } }, wb3, wb4, ap0, st0]

theorem sequencerOk_tests : ∀ s ∈ invariantStates, SequencerOk s := by
  simp only [invariantStates, List.forall_mem_cons, List.not_mem_nil, false_implies, implies_true, and_true]
  refine ⟨?_, ?_, ?_, ?_, ?_, ?_, ?_, ?_⟩ <;> constructor <;>
    first
    | decide
    | (simp [phaseFits, InWriteCycle, InConfig, ready8, initReady, wb0, wb3, wb4, ap0, st0, at8, State.construct, exampleParams]; done)
    | exact fun _ => by decide

/-- On H8 a pin of neither list is pin 0, pin 1, or no pin of the platform. -/
theorem others_unconf {s : State} {data : Level → Pin} {rs rw en : Level} (hs : s.pins = pins8 data rs rw en) (p : PinId)
    (hc : p ∉ ctrlList Config.handle) (hd : p ∉ dataList Config.handle) : s.modeOf p = .unconf := by
  simp only [State.modeOf, hs]
  by_cases h : p < 13
  · interval_cases p <;> first | rfl | exact absurd (by decide) hc | exact absurd (by decide) hd
  · rw [List.getElem?_eq_none (by simpa [pins8] using h)]

theorem directionOk_tests : ∀ s ∈ invariantStates, DirectionOk s := by
  simp only [invariantStates, List.forall_mem_cons, List.not_mem_nil, false_implies, implies_true, and_true]
  refine ⟨?_, ?_, ?_, ?_, ?_, ?_, ?_, ?_⟩ <;> constructor <;>
    first
    | exact others_unconf rfl
    | exact fun _ _ => (by decide : ∀ p ∈ ctrlList Config.handle, State.settingsOf _ p = some _)
    | exact fun _ _ _ => (by decide : ∀ p ∈ dataList Config.handle, State.settingsOf _ p = some _)
    | exact fun _ => (by decide : ∀ p ∈ dataList Config.handle, State.settingsOf _ p = some _)
    | exact fun _ _ h => absurd trivial h
    | exact fun h => h.elim
    | exact fun h => absurd h (by decide)

theorem linesOk_tests : ∀ s ∈ invariantStates, LinesOk s := by
  simp only [invariantStates, List.forall_mem_cons, List.not_mem_nil, false_implies, implies_true, and_true]
  refine ⟨?_, ?_, ?_, ?_, ?_, ?_, ?_, ?_⟩ <;> constructor <;> 
    first
    | decide
    | exact fun h => absurd h (by decide)
    | exact fun _ j p hj => by
        have hlen : j < 8 := (List.getElem?_eq_some_iff.1 hj).1
        interval_cases j <;> (injection hj with hj; subst hj; rfl)

theorem inv_tests : ∀ s ∈ invariantStates, Inv s := fun s h =>
  ⟨sequencerOk_tests s h, directionOk_tests s h, linesOk_tests s h⟩

/-! ### Witnesses: for each obligation with hypotheses, a state and operands that meet them together

Where the statement has several clauses, there is one for each, at a boundary value of its range. -/

theorem inv_ready8 : Inv ready8 := inv_tests _ (by simp [invariantStates])
theorem inv_wb0 : Inv wb0 := inv_tests _ (by simp [invariantStates])
theorem inv_wb3 : Inv wb3 := inv_tests _ (by simp [invariantStates])
theorem inv_wb4 : Inv wb4 := inv_tests _ (by simp [invariantStates])
theorem inv_ap0 : Inv ap0 := inv_tests _ (by simp [invariantStates])
theorem inv_st0 : Inv st0 := inv_tests _ (by simp [invariantStates])

theorem ready8_accepting : Accepting ready8 := ⟨by decide, rfl, rfl, rfl⟩
theorem wb3_steps : ∃ t, step wb3 = .next t := next_of_nextOf (by decide)

theorem witness_DecodingAnEncodingGivesTheInstruction :
    (Instr.send true []).wellFormed = true ∧ encode (.send true []) = .port [.header 0x30010000#32] ∧
      (Instr.sendSingle true 0xFF#8).wellFormed = true ∧ Instr.drWrite.wellFormed = true := by decide

theorem witness_DecodedCommandIsItsOwnEncoding :
    decodePort [.header 0x30000001#32, .beat 0xFF#8, .beat 0x00#8] = .instr (.send false [0xFF#8]) [.beat 0x00#8] := by
  decide

theorem witness_ReservedHeadersAreRefused :
    ready8.phase = .idle ∧ ready8.cmd = .none ∧
      { ready8 with port := [.header 0x00000000#32] }.port = .header 0x00000000#32 :: [] ∧
      decodeHeader 0x00000000#32 = .rejected .reservedOpcode ∧ decodeHeader 0x60000000#32 = .rejected .reservedOpcode ∧
      decodeHeader 0x50020000#32 = .rejected .zeroFieldSet ∧ decodeHeader 0x20010000#32 = .rejected .flagOnPlainCommand ∧
      decodeHeader 0x50008000#32 = .rejected .argumentOnPlainCommand ∧
      decodeHeader 0x40000100#32 = .rejected .argumentHighByteSet := by decide

theorem witness_StepRunsTheDecodedInstruction :
    (ready8.phase = .idle ∧ ready8.cmd = .none ∧
      decodePort { ready8 with port := [.header 0x50000000#32] }.port = .instr .clear []) ∧
    decodePort ready8.port = .incomplete ∧ (∃ b, wb0.phase = .waitBusy b) ∧ (∃ b, wb6.phase = .waitBusy b) ∧
    InWriteCycle ap0.phase ∧ InWriteCycle st1.phase :=
  ⟨by decide, by decide, ⟨_, rfl⟩, ⟨_, rfl⟩, trivial, trivial⟩

theorem witness_StepIssuesAtMostOneEvent : (∃ t, step wb3 = .next t) ∧ step ready8 = .next ready8 := ⟨wb3_steps, rfl⟩

theorem witness_StepKeepsHandleAndParameters : ∃ t, step wb3 = .next t := wb3_steps

theorem witness_StepLeavesOtherPinsAlone :
    SequencerOk wb3 ∧ (∃ t, step wb3 = .next t) ∧ 1 ∉ ctrlList wb3.handle ∧ 1 ∉ dataList wb3.handle :=
  ⟨inv_wb3.sequencer, wb3_steps, by decide, by decide⟩

theorem witness_BusyFlagIsTheLastSample :
    (wb3.phase ≠ .waitBusy .wb4 ∧ ∃ t, step wb3 = .next t) ∧ wb4.phase = .waitBusy .wb4 ∧ ∃ t, step wb4 = .next t :=
  ⟨⟨by decide, wb3_steps⟩, rfl, next_of_nextOf (by decide)⟩

theorem sequencerOk_initEnd : SequencerOk initEnd := by
  constructor <;>
    first
    | decide
    | (simp [phaseFits, InWriteCycle, InConfig, initEnd, st1, at8, State.construct, exampleParams]; done)
    | exact fun _ => by decide

theorem witness_InitedIsSetByInitOnly :
    (SequencerOk wb3 ∧ wb3.inited = true ∧ ∃ t, step wb3 = .next t) ∧
    (SequencerOk initEnd ∧ initEnd.inited = false ∧ initEnd.cmd = .init ∧ initEnd.phase = .strobe .st1 ∧ initEnd.queue = [] ∧
      ∃ t, step initEnd = .next t ∧ t.inited = true) ∧
    State.reset.inited = false :=
  ⟨⟨inv_wb3.sequencer, rfl, wb3_steps⟩, ⟨sequencerOk_initEnd, rfl, rfl, rfl, rfl, _, rfl, rfl⟩, rfl⟩

theorem witness_AddressPhaseFollowsAZeroSample :
    (∃ t, step wb6 = .next t ∧ t.phase = .addressPhase .ap0) ∧ (∃ t, step wb5 = .next t ∧ t.phase = .waitBusy .wb6) ∧
    (∃ t, step { wb4 with samples := [false] } = .next t ∧ t.phase = .waitBusy .wb5) ∧
    ∃ t, step { wb4 with params := { exampleParams with pollLimit := some 1 } } = .next t ∧
      t.phase = .waitBusy .wb5 ∧ t.bf = true :=
  ⟨⟨_, rfl, rfl⟩, ⟨_, rfl, rfl⟩, ⟨_, rfl, rfl⟩, _, rfl, rfl, rfl⟩

theorem witness_InitIsAccepted : Accepting ready8 ∧ Accepting State.reset :=
  ⟨ready8_accepting, by decide, rfl, rfl, rfl⟩

theorem witness_WaitReadyStartsAHandshake : Accepting ready8 ∧ ready8.inited = true := ⟨ready8_accepting, rfl⟩

theorem witness_SendStartsItsFirstByte : Accepting ready8 ∧ ready8.inited = true := ⟨ready8_accepting, rfl⟩

theorem witness_EmptySendIssuesNothing :
    (Accepting ready8 ∧ ready8.inited = true) ∧ Accepting State.reset ∧ State.reset.inited = false :=
  ⟨⟨ready8_accepting, rfl⟩, ⟨by decide, rfl, rfl, rfl⟩, rfl⟩

theorem witness_CommandsAreRefusedExactlyWhenNotAdmitted :
    { ready8 with handle := { Config.handle with rwPin := 10 } }.handleOk = false ∧
    (faulted.handleOk = true ∧ faulted.fault ≠ none) ∧
    (wb4.handleOk = true ∧ wb4.fault = none ∧ wb4.phase ≠ .idle) ∧
    (Accepting State.reset ∧ State.reset.inited = false ∧ Instr.clear ≠ .init) ∧
    Accepting ready8 ∧ ready8.inited = true :=
  ⟨by decide, by decide, by decide, ⟨⟨by decide, rfl, rfl, rfl⟩, rfl, by decide⟩, ready8_accepting, rfl⟩

theorem witness_PinWriteSetsTheLatch : ready8.modeOf 12 = .output ∧ ready8.modeOf 2 = .output := by decide

theorem witness_PinSetClearDrivesBothSetsAtOnce :
    (∀ p ∈ [3, 4], p ∉ [2, 9]) ∧ (∀ p ∈ [3, 4], dd0.modeOf p = .output) ∧ (∀ p ∈ [2, 9], dd0.modeOf p = .output) := by
  decide

theorem witness_PinConfigSucceedsOrFaults :
    wb0.configWillFail = false ∧ (2 ∈ dataSet wb0.handle ∧ 2 < wb0.pinCount) ∧ configFails.configWillFail = true := by
  decide

theorem witness_PinReadTakesTheEnvironmentsLevel : wb4.modeOf 9 = .input ∧ wb4.samples = true :: [true, false] := by decide

theorem witness_PrimitivesAgainstTheModeAreRefused :
    wb4.modeOf 9 ≠ .output ∧ 9 ∈ ([9] : PinSet) ∧ ready8.modeOf 0 ≠ .output ∧ ready8.modeOf 9 ≠ .input := by decide

theorem witness_BadWidthFaultsBeforeAnyPin : Accepting badWidth ∧ ¬ legalWidth badWidth.handle :=
  ⟨⟨by decide, rfl, rfl, rfl⟩, by decide⟩

theorem witness_FailedConfigurationFaultsAtEachStep :
    (configFails.configWillFail = true ∧ configFails.phase = .config .cf1) ∧
    ({ wb0 with cfgFails := [true] }.configWillFail = true ∧ wb0.phase = .waitBusy .wb0) ∧
    ({ wb6 with cfgFails := [true] }.configWillFail = true ∧ wb6.phase = .waitBusy .wb6) ∧
    { configFails with phase := .config .cf2 }.phase = .config .cf2 := by decide

theorem witness_FaultStateIsAbsorbing : faulted.phase = .fault ∧ decodePort faulted.port = .incomplete := by decide

theorem witness_InitBringsTheControllerUp :
    Inv initReady ∧ Accepting initReady ∧ legalWidth initReady.handle ∧ bfPin initReady.handle = some 9 ∧
      BelowPollLimit initReady [0, 1, 0, 0] ∧ (∃ more, initReady.samples = responsiveSamples [0, 1, 0, 0] ++ more) ∧
      ∃ more, initReady.cfgFails = List.replicate 10 false ++ more :=
  ⟨inv_tests _ (by simp [invariantStates]), ⟨by decide, rfl, rfl, rfl⟩, by decide, by decide,
    fun _ h => (Option.some_ne_none _ h.symm).elim, ⟨[], rfl⟩, [], rfl⟩

theorem witness_BusyReadDrivesTheControlLines :
    (wb1.phase = .waitBusy .wb1 ∧ wb1.modeOf wb1.handle.rsPin = .output) ∧
    (wb2.phase = .waitBusy .wb2 ∧ wb2.modeOf wb2.handle.rwPin = .output) ∧
    (wb3.phase = .waitBusy .wb3 ∧ wb3.modeOf wb3.handle.enPin = .output) ∧
    wb5.phase = .waitBusy .wb5 ∧ wb5.modeOf wb5.handle.enPin = .output := by decide

theorem witness_BusyReadTurnsTheDataPins :
    (wb0.configWillFail = false ∧ wb0.phase = .waitBusy .wb0) ∧
    (wb6.configWillFail = false ∧ wb6.phase = .waitBusy .wb6 ∧ wb6.timedOut = false ∧ wb6.cmd = .send) ∧
    ({ wb6 with cmd := .waitReady }.phase = .waitBusy .wb6 ∧ { wb6 with cmd := .waitReady }.timedOut = false) ∧
    { wb6 with timedOut := true }.timedOut = true := by decide

theorem witness_BusyReadSamplesTheBusyPin :
    wb4.phase = .waitBusy .wb4 ∧ bfPin wb4.handle = some 9 ∧ wb4.modeOf 9 = .input ∧ wb4.params.pollLimit = none ∧
    { wb4 with params := { exampleParams with pollLimit := some 1 } }.params.pollLimit = some 1 := by decide

theorem witness_WriteCyclesDriveTheBus :
    (ap0.curI = true ∧ { ap0 with curI := false }.curI = false) ∧
    (ap0.phase = .addressPhase .ap0 ∧ ap0.modeOf ap0.handle.rsPin = .output) ∧
    (ap1.phase = .addressPhase .ap1 ∧ ap1.modeOf ap1.handle.rwPin = .output) ∧
    (dd0.phase = .dataDrive ∧ (∀ p ∈ dd0.setMask, p ∉ dd0.clrMask) ∧ (∀ p ∈ dd0.setMask, dd0.modeOf p = .output) ∧
      ∀ p ∈ dd0.clrMask, dd0.modeOf p = .output) ∧
    (st0.phase = .strobe .st0 ∧ st0.modeOf st0.handle.enPin = .output) ∧
    (st1.phase = .strobe .st1 ∧ st1.modeOf st1.handle.enPin = .output ∧ st1.queue = [] ∧
      { st1 with queue := [0x69#8] }.queue ≠ []) := by decide

theorem witness_BusCyclesKeepEverythingElse :
    (∃ t, exec .busyRead wb3 = .next t) ∧ (∃ t, exec .irWrite dd0 = .next t) ∧
      ∃ t, exec .drWrite { dd0 with curI := false } = .next t :=
  ⟨next_of_nextOf (by decide), next_of_nextOf (by decide), next_of_nextOf (by decide)⟩

theorem witness_BusCyclesRunOnlyWhereGenerated :
    (∀ b, ready8.phase ≠ .waitBusy b) ∧ ¬ InWriteCycle ready8.phase ∧ ap0.curI = true ∧
      { ap0 with curI := false }.curI = false :=
  ⟨fun _ h => Phase.noConfusion h, id, rfl, rfl⟩

theorem witness_MasksSplitTheDataPinsByBit :
    (handleWellFormed Config.handle 13 ∧ legalWidth Config.handle ∧ Config.handle.dataPins[7]? = some 9) ∧
    (handleWellFormed hx 28 ∧ legalWidth hx ∧ hx.dataPins[3]? = some 5 ∧
      ∀ j, j < hx.busWidth → (0x03#8).getLsbD j = (0xF3#8).getLsbD j) := by
  decide

theorem witness_StepKeepsTheSequencerInOrder : SequencerOk wb3 ∧ ∃ t, step wb3 = .next t :=
  ⟨inv_wb3.sequencer, wb3_steps⟩

theorem witness_StepKeepsDirectionsMatchingThePhase : Inv wb0 ∧ ∃ t, step wb0 = .next t :=
  ⟨inv_wb0, next_of_nextOf (by decide)⟩

theorem witness_StepKeepsTheLinesStable : Inv ap0 ∧ ∃ t, step ap0 = .next t := ⟨inv_ap0, next_of_nextOf (by decide)⟩

theorem witness_StepKeepsLatchesFollowingTheTrace :
    LatchesFollowTrace Config.latchReset State.reset ∧ step State.reset = .next State.reset := by
  refine ⟨fun p hp => ?_, rfl⟩
  have h : p < 13 := hp
  interval_cases p <;> rfl

theorem witness_ACommandInProgressAlwaysSteps : Inv wb4 ∧ wb4.cmd ≠ .none := ⟨inv_wb4, by decide⟩

theorem witness_NoReadOfTheDataRegisterIsStrobed :
    (Inv wb3 ∧ ∃ t, step wb3 = .next t ∧ t.trace = wb3.trace ++ [.w wb3.handle.enPin true]) ∧
    Inv st0 ∧ ∃ t, step st0 = .next t ∧ t.trace = st0.trace ++ [.w st0.handle.enPin true] :=
  ⟨⟨inv_wb3, _, rfl, rfl⟩, inv_st0, _, rfl, rfl⟩

theorem witness_BusCyclesAppearAsTheirEvents :
    (Inv ap0 ∧ ap0.phase = .addressPhase .ap0) ∧ Inv wb0 ∧ wb0.phase = .waitBusy .wb0 ∧ bfPin wb0.handle = some 9 ∧
      BelowPollLimit wb0 [2] ∧ Responsive wb0 [2] :=
  ⟨⟨inv_ap0, rfl⟩, inv_wb0, rfl, by decide, fun _ h => (Option.some_ne_none _ h.symm).elim, ⟨[], rfl⟩, ⟨[], rfl⟩⟩

theorem witness_WaitReadyCompletes :
    Inv ready8 ∧ Accepting ready8 ∧ ready8.inited = true ∧ bfPin ready8.handle = some 9 ∧ BelowPollLimit ready8 [2] ∧
      Responsive ready8 [2] :=
  ⟨inv_ready8, ready8_accepting, rfl, by decide, fun _ h => (Option.some_ne_none _ h.symm).elim, ⟨[], rfl⟩, ⟨[], rfl⟩⟩

theorem witness_SendTransmitsEveryByte :
    Inv ready8 ∧ Accepting ready8 ∧ ready8.inited = true ∧ bfPin ready8.handle = some 9 ∧
      [2].length = [0x38#8].length ∧ BelowPollLimit ready8 [2] ∧ Responsive ready8 [2] ∧
      [0x38#8].getLast? = some 0x38#8 ∧ Responsive ready8 [] :=
  ⟨inv_ready8, ready8_accepting, rfl, by decide, rfl, fun _ h => (Option.some_ne_none _ h.symm).elim,
    ⟨⟨[], rfl⟩, ⟨[], rfl⟩⟩, rfl, ⟨_, rfl⟩, ⟨_, rfl⟩⟩

theorem witness_WritesListsEachByteOnce :
    (handleWellFormed hx 28 ∧ legalWidth hx ∧ bfPin hx = some 5) ∧
    handleWellFormed Config.handle 13 ∧ legalWidth Config.handle ∧ bfPin Config.handle = some 9 := by decide

theorem witness_BusyControllerHangsTheBlock :
    Inv wb4 ∧ wb4.phase = .waitBusy .wb4 ∧ wb4.params.pollLimit = none ∧ bfPin wb4.handle = some 9 ∧
      ∃ more, wb4.samples = List.replicate 2 true ++ more :=
  ⟨inv_wb4, rfl, rfl, by decide, [false], rfl⟩

theorem witness_PollLimitEndsTheHandshake :
    ∃ s : State, s = { wb0 with params := { exampleParams with pollLimit := some 1 } } ∧ Inv s ∧
      s.phase = .waitBusy .wb0 ∧ s.params.pollLimit = some 1 ∧ bfPin s.handle = some 9 ∧
      (∃ more, s.samples = List.replicate 1 true ++ more) ∧ ∃ more, s.cfgFails = false :: false :: more :=
  ⟨_, rfl, inv_tests _ (by simp [invariantStates]), rfl, rfl, by decide, ⟨[true, false], rfl⟩, [], rfl⟩

/-- On H4 the bytes `0xF3` and `0x03` differ in invisible bits only (95_test_vectors.md P2). -/
theorem witness_DroppedBitsAreInvisible :
    SameLowBits { wb6 with handle := h4, curByte := 0xF3#8, cfgFails := [false] }
      { wb6 with handle := h4, curByte := 0x03#8, cfgFails := [false] } ∧
    (∃ s', run 1 { wb6 with handle := h4, curByte := 0xF3#8, cfgFails := [false] } = .next s') ∧
    [0x03#8].map (lowBits h4) = [0xF3#8].map (lowBits h4) ∧
    ∃ s', exec (.send false [0xF3#8]) { ready8 with handle := h4 } = .next s' :=
  ⟨⟨rfl, by decide, by decide⟩, next_of_nextOf (by decide), by decide, next_of_nextOf (by decide)⟩

/-- One state for each of the four ways: an ordinary step, a bad width, each failing call, and a timeout. -/
theorem witness_ErrorsCarryTheirCodes :
    (∃ t, step wb3 = .next t ∧ t.reportedNumbers = wb3.reportedNumbers) ∧
    (∃ t, step { badWidth with cmd := .init, phase := .config .cf0 } = .next t ∧ t.reportedNumbers = [1]) ∧
    (∀ s ∈ [configFails, { configFails with phase := .config .cf2 }, { wb0 with cfgFails := [true] },
      { wb6 with cfgFails := [true] }], ∃ t, step s = .next t) ∧
    ∃ t, step { wb6 with timedOut := true } = .next t ∧ t.reportedNumbers = [3] ∧ t.faultNumber = none :=
  ⟨⟨_, rfl, rfl⟩, ⟨_, rfl, rfl⟩, by
    simp only [List.forall_mem_cons, List.not_mem_nil, false_implies, implies_true, and_true]
    exact ⟨next_of_nextOf (by decide), next_of_nextOf (by decide), next_of_nextOf (by decide),
      next_of_nextOf (by decide)⟩, _, rfl, rfl, rfl⟩

/-- A run of each kind but the one that hangs; `stuck` below is the one that hangs. -/
theorem witness_ARunEndsWellFaultsHangsOrIsRefused :
    (Inv ready8 ∧ RunEndsWell ready8) ∧ RunFaults faulted ∧
    ∃ why, run 1 { ready8 with port := [.header 0x00000000#32] } = .refused why :=
  ⟨⟨inv_ready8, 0, _, rfl, ⟨rfl, rfl, rfl⟩, rfl, rfl, rfl, rfl⟩, ⟨0, _, rfl, rfl⟩, _, rfl⟩

/-- A controller that is stuck busy. -/
def stuck (s : State) : State := { s with samples := [], sampleAfter := some true, cfgFails := [false, false, false] }

theorem inv_stuck {s : State} (h : Inv s) : Inv (stuck s) :=
  ⟨⟨h.1.1, h.1.2, h.1.3, h.1.4, h.1.5, h.1.6, h.1.7, h.1.8, h.1.9, h.1.10, h.1.11, h.1.12, h.1.13, h.1.14⟩,
    ⟨h.2.1, h.2.2, h.2.3, h.2.4, h.2.5⟩, ⟨h.3.1, h.3.2, h.3.3, h.3.4, h.3.5, h.3.6, h.3.7, h.3.8⟩⟩

theorem witness_SamplingGoesOnWhileEverySampleIsOne :
    (Inv (stuck wb4) ∧ (stuck wb4).phase = .waitBusy .wb4 ∧ (stuck wb4).params.pollLimit = none ∧
      bfPin (stuck wb4).handle = some 9) ∧
    (∀ j, (stuck wb4).sampleAt j 9 = true) ∧ wb4.sampleAt 2 9 = false :=
  ⟨⟨inv_stuck inv_wb4, rfl, rfl, by decide⟩, fun _ => rfl, rfl⟩

theorem witness_AStuckControllerHangsEveryCommand :
    Inv (stuck ready8) ∧ Accepting (stuck ready8) ∧ legalWidth (stuck ready8).handle ∧
    (stuck ready8).params.pollLimit = none ∧ (stuck ready8).samples = [] ∧ (stuck ready8).sampleAfter = some true ∧
    (∃ more, (stuck ready8).cfgFails = [false, false, false] ++ more) ∧ (stuck ready8).inited = true :=
  ⟨inv_stuck inv_ready8, ⟨by decide, rfl, rfl, rfl⟩, by decide, rfl, rfl, rfl, ⟨[], rfl⟩, rfl⟩

theorem witness_WithAPollLimitNoRunHangs :
    ∃ s : State, s = { wb0 with params := { exampleParams with pollLimit := some 1 } } ∧
      s.params.pollLimit = some 1 ∧ SequencerOk s :=
  ⟨_, rfl, rfl, sequencerOk_tests _ (by simp [invariantStates])⟩

end Sys2Proof.Tests
end

/-! The GPIO primitives on output pins (20_memory.md R52, R54): a pin that the call does not name keeps its whole entry
of the pin space, and an output has a latch for the call to write. -/

namespace Sys2Proof.Machine

section
variable {s : State} {p q : PinId} {v : Level} {S C : PinSet}

/-- Only a pin of the platform is an output, so an output has a latch. -/
theorem latchOf_isSome_of_output (h : s.modeOf p = .output) : ∃ v, s.latchOf p = some v := by
  cases hp : s.pins[p]? with
  | none => simp [State.modeOf, hp] at h
  | some x => exact ⟨x.latch, by simp [State.latchOf, hp]⟩

theorem afterWrite_getElem?_of_ne (h : p ≠ q) : (s.afterWrite q v).pins[p]? = s.pins[p]? := by
  have hid : latchPin q v p = id := funext fun x => if_neg h
  simp [hid]

theorem afterSetClear_getElem?_of_not_mem (hS : p ∉ S) (hC : p ∉ C) :
    (s.afterSetClear S C).pins[p]? = s.pins[p]? := by
  have hid : latchSets S C p = id := funext fun x => (if_neg hS).trans (if_neg hC)
  simp [hid]

/-- What `PinWrite` does to the pin space (R52). -/
theorem drivesPin_afterWrite (h : s.modeOf p = .output) : DrivesPin s (s.afterWrite p v) p v := by
  obtain ⟨w, hw⟩ := latchOf_isSome_of_output h
  exact ⟨by simp [hw], afterWrite_settingsOf, fun _ hq => afterWrite_getElem?_of_ne hq⟩

/-- What `PinSetClear` does to the pin space (R54). The sets are disjoint, so a pin of `C` is not set as well. -/
theorem drivesPins_afterSetClear (hdisj : ∀ p ∈ S, p ∉ C) (hS : ∀ p ∈ S, s.modeOf p = .output)
    (hC : ∀ p ∈ C, s.modeOf p = .output) : DrivesPins s (s.afterSetClear S C) S C := by
  refine ⟨fun p hp => ⟨?set, afterSetClear_settingsOf⟩, fun p hp => ⟨?clear, afterSetClear_settingsOf⟩,
    fun _ hqS hqC => afterSetClear_getElem?_of_not_mem hqS hqC⟩
  case set =>
    obtain ⟨w, hw⟩ := latchOf_isSome_of_output (hS p hp)
    simp [hp, hw]
  case clear =>
    obtain ⟨w, hw⟩ := latchOf_isSome_of_output (hC p hp)
    have hpS : p ∉ S := fun hpS => hdisj p hpS hp
    simp [hp, hpS, hw]

end

/-- Settles O21: the call answers `afterSetClear`, which changes the pins and the trace only. -/
theorem pinSetClearDrivesBothSetsAtOnce : Obligations.PinSetClearDrivesBothSetsAtOnce := by
  intro s S C k hdisj hS hC
  exact ⟨s.afterSetClear S C, pinSetClear_of_outputs hS hC, rfl, drivesPins_afterSetClear hdisj hS hC⟩

/-- Settles O20: the call answers `afterWrite`, which changes the pins and the trace only. -/
theorem pinWriteSetsTheLatch : Obligations.PinWriteSetsTheLatch := by
  intro s p v k h
  exact ⟨s.afterWrite p v, pinWrite_of_output h, rfl, drivesPin_afterWrite h⟩

end Sys2Proof.Machine

/-! Reserved headers (30_encoding.md R74), one equation of `decodeHeader` per case of the field `op`, and the two wrapper
commands as their expansions (R81). -/

namespace Sys2Proof

section
variable {w : BitVec 32}

/-- A value of `op` is reserved (R74) or one of the five commands (R72). -/
theorem opcode_cases (op : BitVec 4) :
    (op = 0 ∨ 6 ≤ op.toNat) ∨ op = 1 ∨ op = 2 ∨ op = 3 ∨ op = 4 ∨ op = 5 := by
  revert op; decide

theorem decodeHeader_of_reservedOp (h : headerOp w = 0 ∨ 6 ≤ (headerOp w).toNat) :
    decodeHeader w = .rejected .reservedOpcode := if_pos h

theorem decodeHeader_of_zeroField (hop : ¬(headerOp w = 0 ∨ 6 ≤ (headerOp w).toNat)) (hz : headerZero w ≠ 0) :
    decodeHeader w = .rejected .zeroFieldSet := (if_neg hop).trans (if_pos hz)

theorem decodeHeader_of_init (hop : headerOp w = 1) (hz : headerZero w = 0) :
    decodeHeader w = plainCommand w .init := by simp [decodeHeader, hop, hz]

theorem decodeHeader_of_waitReady (hop : headerOp w = 2) (hz : headerZero w = 0) :
    decodeHeader w = plainCommand w .waitReady := by simp [decodeHeader, hop, hz]

theorem decodeHeader_of_send (hop : headerOp w = 3) (hz : headerZero w = 0) :
    decodeHeader w = .send (headerFlag w) (headerArg w).toNat := by simp [decodeHeader, hop, hz]

theorem decodeHeader_of_sendSingle (hop : headerOp w = 4) (hz : headerZero w = 0) :
    decodeHeader w = if headerArgHigh w ≠ 0 then .rejected .argumentHighByteSet
      else .sendSingle (headerFlag w) (headerArgLow w) := by simp [decodeHeader, hop, hz]

theorem decodeHeader_of_clear (hop : headerOp w = 5) (hz : headerZero w = 0) :
    decodeHeader w = plainCommand w .clear := by simp [decodeHeader, hop, hz]

theorem plainCommand_rejected_iff {form : HeaderForm} (hform : ∀ why, form ≠ .rejected why) :
    (∃ why, plainCommand w form = .rejected why) ↔ (headerFlag w = true ∨ headerArg w ≠ 0) := by
  unfold plainCommand
  split
  next hf => exact iff_of_true ⟨_, rfl⟩ (.inl hf)
  split
  next _ ha => exact iff_of_true ⟨_, rfl⟩ (.inr ha)
  next hf ha => exact iff_of_false (fun ⟨why, h⟩ => hform why h) (not_or.2 ⟨hf, ha⟩)

/-- The grounds of R74, for a header of each `op`. -/
theorem decodeHeader_rejected_iff :
    (∃ why, decodeHeader w = .rejected why) ↔
      (headerOp w = 0 ∨ 6 ≤ (headerOp w).toNat ∨ headerZero w ≠ 0 ∨
        ((headerOp w = 1 ∨ headerOp w = 2 ∨ headerOp w = 5) ∧ (headerFlag w = true ∨ headerArg w ≠ 0)) ∨
        (headerOp w = 4 ∧ headerArgHigh w ≠ 0)) := by
  by_cases hres : headerOp w = 0 ∨ 6 ≤ (headerOp w).toNat
  case pos => exact iff_of_true ⟨_, decodeHeader_of_reservedOp hres⟩ (or_assoc.1 (.inl hres))
  by_cases hz : headerZero w = 0
  case neg => exact iff_of_true ⟨_, decodeHeader_of_zeroField hres hz⟩ (.inr (.inr (.inl hz)))
  obtain hop | hop | hop | hop | hop := (opcode_cases (headerOp w)).resolve_left hres
  · rw [decodeHeader_of_init hop hz, plainCommand_rejected_iff (by simp)]
    simp [hop, hz]
  · rw [decodeHeader_of_waitReady hop hz, plainCommand_rejected_iff (by simp)]
    simp [hop, hz]
  · simp [decodeHeader_of_send hop hz, hop, hz]
  · rw [decodeHeader_of_sendSingle hop hz]
    split
    next hhigh => simpa [hop, hz] using hhigh
    next hhigh => simpa [hop, hz] using hhigh
  · rw [decodeHeader_of_clear hop hz, plainCommand_rejected_iff (by simp)]
    simp [hop, hz]

theorem decodePort_of_rejected {ws : List PortWord} {why : Reject} (h : decodeHeader w = .rejected why) :
    decodePort (.header w :: ws) = .rejected why := by simp [decodePort, h]

end

end Sys2Proof

namespace Sys2Proof.Machine

section
variable {s : State}

/-- A block that waits for a command refuses what the port's decoder rejects (R74). -/
theorem step_of_rejected {why : Reject} (hp : s.phase = .idle) (hc : s.cmd = .none)
    (hd : decodePort s.port = .rejected why) : step s = .refused (.reservedEncoding why) := by
  rw [step_idle hp hc, hd]

/-- A command takes effect on the state it is presented in, so two effects need to agree only there. -/
theorem accept_congr {needs : Bool} {k k' : State → State} (h : k s = k' s) : accept needs k s = accept needs k' s := by
  unfold accept; rw [h]

theorem exec_sendSingle_eq_send (f : Bool) (b : Byte) : exec (.sendSingle f b) s = exec (.send f [b]) s :=
  (exec_sendSingle s f b).trans (exec_send s f [b]).symm

theorem exec_clear_eq_send : exec .clear s = exec (.send true [s.params.clearInstruction]) s := by
  rw [exec_clear, exec_send]
  exact accept_congr rfl

end

/-- Settles O5: the header's `op` decides which of the fields `zero`, `I` and `arg` can reject it. -/
theorem reservedHeadersAreRefused : Obligations.ReservedHeadersAreRefused := by
  intro w
  refine ⟨decodeHeader_rejected_iff, fun s more why hp hc hport hw => step_of_rejected hp hc ?_⟩
  rw [hport, decodePort_of_rejected hw]

/-- Settles O18: both wrappers are accepted with the operands of their `SEND`. -/
theorem wrappersAreTheirExpansions : Obligations.WrappersAreTheirExpansions := by
  intro s f b
  exact ⟨exec_sendSingle_eq_send f b, exec_clear_eq_send.trans (exec_sendSingle_eq_send true _).symm, exec_clear_eq_send⟩

end Sys2Proof.Machine

/-! The width test of `INIT` (40_initialize.md R100, R101): acceptance of the command, then its first sub-step. -/

namespace Sys2Proof.Machine

/-- `INIT` needs no earlier `INIT` (R109), so a block that accepts commands accepts it, initialised or not. -/
theorem exec_init_of_accepting {s : State} (ha : Accepting s) : exec .init s = .next (startInit s) := by
  obtain ⟨hhandle, hfault, hphase, hcmd⟩ := ha
  rw [exec_init]
  exact accept_of_ok hhandle hfault hphase hcmd (by simp)

/-- Settles O25: acceptance leads to the width test, which raises the error on the state that acceptance left. -/
theorem badWidthFaultsBeforeAnyPin : Obligations.BadWidthFaultsBeforeAnyPin := by
  intro s ha hwidth
  have htest : step (startInit s) = .next (raiseConfigurationError .badWidth (startInit s)) :=
    step_cf0_bad (startInit_phase s) hwidth
  exact ⟨_, _, exec_init_of_accepting ha, htest, by simp⟩

end Sys2Proof.Machine

/-! The sampling loop at `WB4` while the environment answers 1 (41_wait_ready.md R124, R125): the answers to come, one
turn of the loop, then any number of turns. -/

namespace Sys2Proof.Machine

section
variable {s : State} {p : PinId} {k : Nat}

theorem modeOf_of_hasSettings {dir : Dir} (h : HasSettings s dir p) : s.modeOf p = Dir.mode dir := by
  rw [modeOf_eq_settings, h]; rfl

theorem sampleAt_zero : s.sampleAt 0 p = s.nextLevel p := by
  unfold State.sampleAt State.nextLevel
  cases s.samples <;> cases s.sampleAfter <;> rfl

/-- A `PinRead` uses up one answer of the environment. -/
theorem sampleAt_afterRead (j : Nat) : (s.afterRead p).sampleAt j p = s.sampleAt (j + 1) p := by
  simp [State.sampleAt, Nat.add_assoc, Nat.add_comm 1 j]

theorem sampleAt_of_replicate {v : Level} {more : List Level} (h : s.samples = List.replicate k v ++ more) {j : Nat}
    (hj : j < k) : s.sampleAt j p = v := by
  simp [State.sampleAt, h, List.getElem?_append, hj]

/-- Without a bound no sample is counted and none times out (R130), so a sample of 1 only repeats the loop. -/
theorem takeSample_busy_of_noLimit (hp : s.phase = .waitBusy .wb4) (hl : s.params.pollLimit = none) :
    takeSample true s = { s with bf := true, timedOut := false } := by
  simp [takeSample, State.withSample, State.goto, sampleTimesOut, pollsAfterSample, hl, hp]

/-- One turn of the loop. -/
theorem step_wb4_busy (hp : s.phase = .waitBusy .wb4) (hl : s.params.pollLimit = none) (hb : bfPin s.handle = some p)
    (hm : s.modeOf p = .input) (hv : s.nextLevel p = true) :
    step s = .next { s.afterRead p with bf := true, timedOut := false } := by
  rw [step_waitBusy hp, busyRead_wb4 hb hm, hv, takeSample_busy_of_noLimit (s := s.afterRead p) hp hl]

/-- Any number of turns: each adds its read event, and nothing but the registers of the sample changes. -/
theorem run_wb4_busy (hp : s.phase = .waitBusy .wb4) (hl : s.params.pollLimit = none) (hb : bfPin s.handle = some p)
    (hm : s.modeOf p = .input) (hv : ∀ j < k, s.sampleAt j p = true) :
    ∃ t, run k s = .next t ∧ t = { s with
      bf := t.bf, timedOut := t.timedOut, samples := t.samples, draws := t.draws,
      trace := s.trace ++ List.replicate k (.r p true) } := by
  induction k generalizing s with
  | zero => exact ⟨s, run_zero s, by simp⟩
  | succ k ih =>
    have hnow : s.nextLevel p = true := sampleAt_zero.symm.trans (hv 0 k.succ_pos)
    have hlater : ∀ j < k, (s.afterRead p).sampleAt j p = true := fun j hj =>
      (sampleAt_afterRead j).trans (hv (j + 1) (Nat.succ_lt_succ hj))
    obtain ⟨t, hrun, ht⟩ := ih (s := { s.afterRead p with bf := true, timedOut := false }) hp hl hb hm hlater
    refine ⟨t, (run_succ_of_step (step_wb4_busy hp hl hb hm hnow)).trans hrun, ht.trans ?_⟩
    simp [hnow, State.afterRead, State.emit, State.tookLevelDraw, List.replicate_succ]

end

/-- In the handshake a command is in progress (10_state.md R20), so the handle is well-formed and of legal width. -/
theorem handle_of_waitBusy {s : State} {b : BusyStep} (h : SequencerOk s) (hp : s.phase = .waitBusy b) :
    handleWellFormed s.handle s.pinCount ∧ legalWidth s.handle := by
  have hcmd : s.cmd ≠ .none := fun hc => by simpa [hc, hp, phaseFits] using h.cmdPhase
  exact ⟨handleOk_iff.1 (h.handleOk (.inl hcmd)), h.width (.inl ⟨hcmd, by simp [hp]⟩)⟩

/-- The busy pin is a data pin, so it is an input while the data pins are. -/
theorem modeOf_bfPin {s : State} {b : BusyStep} {bf : PinId} (h : Inv s) (hp : s.phase = .waitBusy b)
    (hin : DataPinsAreInputs s.phase) (hb : bfPin s.handle = some bf) : s.modeOf bf = .input := by
  obtain ⟨hwf, hwidth⟩ := handle_of_waitBusy h.sequencer hp
  obtain ⟨p, hpin, hdata⟩ := exists_bfPin hwf hwidth
  obtain rfl : p = bf := Option.some.inj (hpin.symm.trans hb)
  exact modeOf_of_hasSettings (h.direction.dataIn hin p hdata)

/-- Settles O46: the run changes no pin, so the lines and directions are those the invariant gives at `WB4`. -/
theorem busyControllerHangsTheBlock : Obligations.BusyControllerHangsTheBlock := by
  intro s k bf hinv hp hl hb ⟨more, hsamples⟩
  have hin : DataPinsAreInputs s.phase := by rw [hp]; trivial
  have hfault : s.fault = none := by simpa [hp] using hinv.sequencer.faultPhase
  obtain ⟨t, hrun, ht⟩ := run_wb4_busy hp hl hb (modeOf_bfPin hinv hp hin hb) fun j hj =>
    sampleAt_of_replicate hsamples hj
  have hpins : t.pins = s.pins := by rw [ht]
  refine ⟨t, hrun, by rw [ht, hp], by rw [ht], hpins, by rw [ht], by rw [ht], by rw [ht], by rw [ht, hfault],
    ?rs, ?rw, ?en, ?data⟩
  case rs => exact (latchOf_congr hpins).trans (hinv.lines.busyRs (by simp [hp]))
  case rw => exact (latchOf_congr hpins).trans (hinv.lines.busyRw (by simp [hp]))
  case en => exact (latchOf_congr hpins).trans (hinv.lines.enHigh (by simp [hp]))
  case data =>
    exact fun p hdata => (modeOf_congr hpins).trans (modeOf_of_hasSettings (hinv.direction.dataIn hin p hdata))

end Sys2Proof.Machine

/-! A `SEND` of no bytes (42_send.md R142): what an accepting block answers to a command that needs `INITED = 1`, before
and after a completed `INIT`, and what the completed empty command leaves. -/

namespace Sys2Proof.Machine

section
variable {s : State} {k : State → State}

theorem accept_of_accepting (needs : Bool) (ha : Accepting s) (hi : s.inited = true) :
    accept needs k s = .next (k s) := by
  obtain ⟨hhandle, hfault, hphase, hcmd⟩ := ha
  exact accept_of_ok hhandle hfault hphase hcmd fun _ => hi

/-- On an accepting block only the last ground of R204 is left. -/
theorem accept_of_notInitialised (ha : Accepting s) (hi : s.inited = false) :
    accept true k s = .refused .notInitialised := by
  obtain ⟨hhandle, hfault, hphase, hcmd⟩ := ha
  have hwhy : refusalOf true s = some .notInitialised := by simp [refusalOf, hhandle, hfault, hphase, hcmd, hi]
  rw [accept, hwhy]

/-- The empty command passes through `SEND` back to no command, so only its operand registers stay changed. -/
theorem startSend_nil_of_accepting (f : Bool) (ha : Accepting s) :
    startSend f [] s = { s with queue := [], curI := f } := by
  obtain ⟨-, -, hphase, hcmd⟩ := ha
  simp [startSend_nil, completeCommand, loadSend, initedAfter, hphase, hcmd]

end

/-- Settles O17: the accepted command changes `QUEUE` and `CUR_I` only, so the rest is as the accepting block had it. -/
theorem emptySendIssuesNothing : Obligations.EmptySendIssuesNothing := by
  intro s f ha
  rw [exec_send]
  refine ⟨fun hi => ⟨_, accept_of_accepting true ha hi, ?_⟩, accept_of_notInitialised ha⟩
  rw [startSend_nil_of_accepting f ha]
  obtain ⟨-, hfault, hphase, hcmd⟩ := ha
  exact ⟨rfl, rfl, rfl, rfl, hphase, hcmd, hfault⟩

end Sys2Proof.Machine

/-! Encoding and decoding (30_encoding.md R71 to R76): the header word of each command, both ways, then whole commands on
the port. -/

namespace Sys2Proof

/-- A plain command's header with `I` and `arg` clear is taken (R71). -/
theorem plainCommand_of_clear {w : BitVec 32} {form : HeaderForm} (hf : headerFlag w = false) (ha : headerArg w = 0) :
    plainCommand w form = form := by
  simp [plainCommand, hf, ha]

theorem decodeHeader_initWord : decodeHeader (headerWord 1#4 false 0#16) = .init := by
  rw [decodeHeader_of_init (by simp) (by simp), plainCommand_of_clear (by simp) (by simp)]

theorem decodeHeader_waitReadyWord : decodeHeader (headerWord 2#4 false 0#16) = .waitReady := by
  rw [decodeHeader_of_waitReady (by simp) (by simp), plainCommand_of_clear (by simp) (by simp)]

theorem decodeHeader_sendWord (f : Bool) {n : Nat} (hn : n < 65536) :
    decodeHeader (headerWord 3#4 f (BitVec.ofNat 16 n)) = .send f n := by
  rw [decodeHeader_of_send (by simp) (by simp), headerFlag_headerWord, headerArg_headerWord, BitVec.toNat_ofNat,
    Nat.mod_eq_of_lt hn]

theorem decodeHeader_sendSingleWord (f : Bool) (b : Byte) :
    decodeHeader (headerWord 4#4 f (0#8 ++ b)) = .sendSingle f b := by
  rw [decodeHeader_of_sendSingle (by simp) (by simp), headerArgHigh_headerWord, headerArgLow_headerWord,
    headerFlag_headerWord, if_neg (by simp)]

theorem decodeHeader_clearWord : decodeHeader (headerWord 5#4 false 0#16) = .clear := by
  rw [decodeHeader_of_clear (by simp) (by simp), plainCommand_of_clear (by simp) (by simp)]

/-- The decoder reads an encoded command off the front of the port and leaves what stands after it. -/
theorem decodePort_encode {i : Instr} {ws : List PortWord} (hwf : i.wellFormed = true) (he : encode i = .port ws)
    (rest : List PortWord) : decodePort (ws ++ rest) = .instr i rest := by
  cases i with
  | init => cases he; simp [decodePort, decodeHeader_initWord]
  | waitReady => cases he; simp [decodePort, decodeHeader_waitReadyWord]
  | send f bytes =>
    cases he
    have hlen : bytes.length < 65536 := of_decide_eq_true hwf
    simp only [List.cons_append, decodePort, decodeHeader_sendWord f hlen]
    exact decodePayload_beats f [] bytes rest
  | sendSingle f b => cases he; simp [decodePort, decodeHeader_sendSingleWord]
  | clear => cases he; simp [decodePort, decodeHeader_clearWord]
  | irWrite => cases he
  | drWrite => cases he
  | busyRead => cases he

/-- Decoding the words of a well-formed instruction gives it back, with nothing left. -/
theorem decode_encode {i : Instr} (hwf : i.wellFormed = true) : decode (encode i) = .instr i [] := by
  cases he : encode i with
  | port ws => simpa [decode] using decodePort_encode hwf he []
  | bus code => cases i <;> cases he <;> decide

/-- The word `w` is the header of the form (R71, R72); a rejected form has none. -/
def IsHeaderOf (w : BitVec 32) : HeaderForm → Prop
  | .init => w = headerWord 1#4 false 0#16
  | .waitReady => w = headerWord 2#4 false 0#16
  | .send f n => n < 65536 ∧ w = headerWord 3#4 f (BitVec.ofNat 16 n)
  | .sendSingle f b => w = headerWord 4#4 f (0#8 ++ b)
  | .clear => w = headerWord 5#4 false 0#16
  | .rejected _ => True

/-- A plain command is taken only with `I` and `arg` clear, so its header is fixed by `op`. -/
theorem isHeaderOf_plainCommand {w : BitVec 32} {form : HeaderForm} (hz : headerZero w = 0)
    (hform : headerWord (headerOp w) false 0#16 = w → IsHeaderOf w form) : IsHeaderOf w (plainCommand w form) := by
  unfold plainCommand
  split
  next => trivial
  split
  next => trivial
  next hf ha =>
    have hw := headerWord_of_fields hz
    rw [Bool.not_eq_true _ |>.mp hf, not_not.1 ha] at hw
    exact hform hw

/-- What the header decoder takes is the header of the form it answers. -/
theorem isHeaderOf_decodeHeader (w : BitVec 32) : IsHeaderOf w (decodeHeader w) := by
  by_cases hres : headerOp w = 0 ∨ 6 ≤ (headerOp w).toNat
  case pos => rw [decodeHeader_of_reservedOp hres]; trivial
  by_cases hz : headerZero w = 0
  case neg => rw [decodeHeader_of_zeroField hres hz]; trivial
  have hw := headerWord_of_fields hz
  obtain hop | hop | hop | hop | hop := (opcode_cases (headerOp w)).resolve_left hres
  · rw [decodeHeader_of_init hop hz]
    exact isHeaderOf_plainCommand hz fun h => (hop ▸ h).symm
  · rw [decodeHeader_of_waitReady hop hz]
    exact isHeaderOf_plainCommand hz fun h => (hop ▸ h).symm
  · rw [decodeHeader_of_send hop hz]
    refine ⟨(headerArg w).isLt, ?_⟩
    rw [BitVec.ofNat_toNat, BitVec.setWidth_eq, ← hw]
    simp [hop]
  · rw [decodeHeader_of_sendSingle hop hz]
    split
    next => trivial
    next hhigh =>
      rw [headerArg_eq_high_low, not_not.1 hhigh, hop] at hw
      exact hw.symm
  · rw [decodeHeader_of_clear hop hz]
    exact isHeaderOf_plainCommand hz fun h => (hop ▸ h).symm

/-- What the port decoder takes off the port is the encoding of the well-formed command it answers. -/
theorem encode_of_decodePort {ws rest : List PortWord} {i : Instr} (h : decodePort ws = .instr i rest) :
    i.wellFormed = true ∧ ∃ front, encode i = .port front ∧ ws = front ++ rest := by
  match ws, h with
  | .header w :: ws, h =>
    have hw := isHeaderOf_decodeHeader w
    simp only [decodePort] at h
    cases hd : decodeHeader w with
    | init => rw [hd] at h hw; cases h; exact ⟨rfl, _, rfl, by rw [hw]; rfl⟩
    | waitReady => rw [hd] at h hw; cases h; exact ⟨rfl, _, rfl, by rw [hw]; rfl⟩
    | send f n =>
      rw [hd] at h hw
      obtain ⟨hn, hword⟩ := hw
      obtain ⟨bytes, hlen, rfl, rfl⟩ := decodePayload_inv h
      exact ⟨decide_eq_true (by simpa [hlen] using hn), _, rfl, by simp [hword, hlen]⟩
    | sendSingle f b => rw [hd] at h hw; cases h; exact ⟨rfl, _, rfl, by rw [hw]; rfl⟩
    | clear => rw [hd] at h hw; cases h; exact ⟨rfl, _, rfl, by rw [hw]; rfl⟩
    | rejected why => rw [hd] at h; cases h

/-- Settles O3: the header decoder inverts each header word, and the payload decoder the beats. -/
theorem decodingAnEncodingGivesTheInstruction : Obligations.DecodingAnEncodingGivesTheInstruction :=
  fun _ hwf => ⟨decode_encode hwf, fun _ rest he => decodePort_encode hwf he rest⟩

/-- Settles O4: a header is determined by the form read from it, and a payload by its beats. -/
theorem decodedCommandIsItsOwnEncoding : Obligations.DecodedCommandIsItsOwnEncoding :=
  fun _ _ _ h => encode_of_decodePort h

/-- Settles O6: nine closed words, by evaluation. -/
theorem specWordsDecode : Obligations.SpecWordsDecode := by
  unfold Obligations.SpecWordsDecode
  decide

end Sys2Proof

/-! What one step may touch (10_state.md R13, R20, R25, 20_memory.md R40, R58): the constants of the instance, the one
primitive a step issues, and what follows for the trace, for the pins outside the handle and for the latches. -/

namespace Sys2Proof.Machine

section
variable {s t : State} {p : PinId} {P S C : PinSet} {dir : Dir} {pull : Pull} {intr : Intr} {n : Nat}

/-- Every move keeps the handle, the parameters and the number of pins. -/
theorem Moves.constants (h : Moves s t) :
    t.handle = s.handle ∧ t.params = s.params ∧ t.pins.length = s.pins.length := by
  cases h <;> simp

theorem Moves.handleOk_eq (h : Moves s t) : t.handleOk = s.handleOk :=
  handleOk_congr h.constants.1 h.constants.2.2

/-- The one primitive that a step issues, if any (10_state.md R20): what it does to the pin space and to the trace. -/
inductive Issues (s t : State) : Prop
  | nothing (hpins : t.pins = s.pins) (htrace : t.trace = s.trace)
  | config (P : PinSet) (dir : Dir) (hP : P = dataSet s.handle ∨ P = ctrlSet s.handle ∧ s.phase = .config .cf2)
      (hpins : t.pins = updatePins (configurePin P dir .none .off) s.pins) (htrace : t.trace = s.trace ++ [.cfg P dir])
  | failedConfig (P : PinSet) (hP : P = dataSet s.handle ∨ P = ctrlSet s.handle ∧ s.phase = .config .cf2)
      (hpins : t.pins = updatePins (scramblePin P s.draws) s.pins) (htrace : t.trace = s.trace)
  | write (p : PinId) (v : Level) (hp : p ∈ ctrlList s.handle) (hpins : t.pins = updatePins (latchPin p v) s.pins)
      (htrace : t.trace = s.trace ++ [.w p v])
  | setClear (hphase : s.phase = .dataDrive) (hpins : t.pins = updatePins (latchSets s.setMask s.clrMask) s.pins)
      (htrace : t.trace = s.trace ++ [.sc s.setMask s.clrMask])
  | read (p : PinId) (hpins : t.pins = s.pins) (htrace : t.trace = s.trace ++ [.r p (s.nextLevel p)])

theorem Moves.issues (h : Moves s t) : Issues s t := by
  cases h with
  | dataConfigured | wb0 | wb6TimedOut | wb6Byte | wb6Done => exact .config _ _ (.inl rfl) rfl rfl
  | ctrlConfigured hp => exact .config _ _ (.inr ⟨rfl, hp⟩) rfl rfl
  | dataFailed => exact .failedConfig _ (.inl rfl) rfl rfl
  | ctrlFailed hp => exact .failedConfig _ (.inr ⟨rfl, hp⟩) rfl rfl
  | wb1 | ap0 => exact .write _ _ (rsPin_mem _) rfl rfl
  | wb2 | ap1 => exact .write _ _ (rwPin_mem _) rfl rfl
  | wb3 => exact .write _ true (enPin_mem _) (by simp) (by simp)
  | wb5 | st0 | st1More | st1Done => exact .write _ _ (enPin_mem _) rfl rfl
  | dd0 hp => exact .setClear hp rfl rfl
  | wb4Busy p | wb4Ready p | wb4TimesOut p => exact .read p rfl rfl
  | _ => exact .nothing rfl rfl

theorem getElem?_configure_of_not_mem (h : t.pins = updatePins (configurePin P dir pull intr) s.pins) (hp : p ∉ P) :
    t.pins[p]? = s.pins[p]? := by
  have hid : configurePin P dir pull intr p = id := funext fun x => if_neg hp
  simp [h, hid]

theorem getElem?_scramble_of_not_mem (h : t.pins = updatePins (scramblePin P n) s.pins) (hp : p ∉ P) :
    t.pins[p]? = s.pins[p]? := by
  have hid : scramblePin P n p = id := funext fun x => if_neg hp
  simp [h, hid]

theorem not_mem_of_config_set (hP : P = dataSet s.handle ∨ P = ctrlSet s.handle) (hc : p ∉ ctrlList s.handle)
    (hd : p ∉ dataList s.handle) : p ∉ P := by
  rcases hP with rfl | rfl
  · simpa using hd
  · simpa using hc

/-- Whatever primitive a step issues, a pin outside the handle and outside the masks keeps its whole entry. -/
theorem Issues.getElem?_of_not_mem (h : Issues s t) (hc : p ∉ ctrlList s.handle) (hd : p ∉ dataList s.handle)
    (hmask : s.phase = .dataDrive → p ∉ s.setMask ∧ p ∉ s.clrMask) : t.pins[p]? = s.pins[p]? := by
  cases h with
  | nothing hpins => rw [hpins]
  | read _ hpins => rw [hpins]
  | config P dir hP hpins => exact getElem?_configure_of_not_mem hpins (not_mem_of_config_set (hP.imp_right And.left) hc hd)
  | failedConfig P hP hpins => exact getElem?_scramble_of_not_mem hpins (not_mem_of_config_set (hP.imp_right And.left) hc hd)
  | write q v hq hpins =>
    rw [hpins]
    exact afterWrite_getElem?_of_ne (v := v) fun e => hc (e ▸ hq)
  | setClear hphase hpins =>
    rw [hpins]
    exact afterSetClear_getElem?_of_not_mem (hmask hphase).1 (hmask hphase).2

/-! ### The latches that the trace says -/

theorem latchesAfterAll_append (lat : PinId → Level) (es : List Event) (e : Event) :
    latchesAfterAll lat (es ++ [e]) = latchesAfter (latchesAfterAll lat es) e := by
  simp [latchesAfterAll]

/-- The primitives act on the latches as their events say (R52, R54, R58), and a call that is no event on none. -/
theorem Issues.latchesFollowTrace {lat : PinId → Level} (h : Issues s t) (hlat : LatchesFollowTrace lat s)
    (hn : t.pinCount = s.pinCount) : LatchesFollowTrace lat t := by
  intro p hp
  have hs : s.latchOf p = some (latchesAfterAll lat s.trace p) := hlat p (hn ▸ hp)
  cases h with
  | nothing hpins htrace => rw [latchOf_congr hpins, htrace, hs]
  | read q hpins htrace => rw [latchOf_congr hpins, htrace, latchesAfterAll_append, hs]; rfl
  | config P dir hP hpins htrace => rw [latchOf_configure hpins, htrace, latchesAfterAll_append, hs]; rfl
  | failedConfig P hP hpins htrace => rw [latchOf_scramble hpins, htrace, hs]
  | write q v hq hpins htrace =>
    rw [latchOf_latchPin hpins, htrace, latchesAfterAll_append, hs]
    by_cases e : p = q <;> simp [latchesAfter, e]
  | setClear hphase hpins htrace =>
    rw [latchOf_latchSets hpins, htrace, latchesAfterAll_append, hs]
    by_cases hS : p ∈ s.setMask <;> by_cases hC : p ∈ s.clrMask <;> simp [latchesAfter, hS, hC]

end

/-- Settles O9: every move keeps them. -/
theorem stepKeepsHandleAndParameters : Obligations.StepKeepsHandleAndParameters :=
  fun _ _ h => (step_moves h).constants

/-- Settles O8: each primitive is at most one event. -/
theorem stepIssuesAtMostOneEvent : Obligations.StepIssuesAtMostOneEvent := by
  intro s t h
  cases (step_moves h).issues with
  | nothing _ htrace => exact .inl htrace
  | failedConfig _ _ _ htrace => exact .inl htrace
  | config _ _ _ _ htrace => exact .inr ⟨_, htrace⟩
  | write _ _ _ _ htrace => exact .inr ⟨_, htrace⟩
  | setClear _ _ htrace => exact .inr ⟨_, htrace⟩
  | read _ _ htrace => exact .inr ⟨_, htrace⟩

/-- Settles O10: a primitive names pins of the handle only; the masks do because they are those of `CUR_BYTE`. -/
theorem stepLeavesOtherPinsAlone : Obligations.StepLeavesOtherPinsAlone := by
  intro s t hseq h p hc hd
  refine (step_moves h).issues.getElem?_of_not_mem hc hd fun hphase => ?_
  obtain ⟨hset, hclr⟩ := hseq.masks (by rw [hphase]; trivial)
  exact ⟨fun hp => hd (setMaskOf_subset (hset ▸ hp)), fun hp => hd (clrMaskOf_subset (hclr ▸ hp))⟩

/-- Settles O39: by the primitive that the step issues. -/
theorem stepKeepsLatchesFollowingTheTrace : Obligations.StepKeepsLatchesFollowingTheTrace := by
  intro lat s t hlat h
  have hmoves := step_moves h
  exact hmoves.issues.latchesFollowTrace hlat hmoves.constants.2.2

/-! ### Single registers -/

/-- With a bound the samples are counted (R130). -/
theorem pollsAfterSample_of_limit {s : State} {n : Nat} (h : s.params.pollLimit = some n) :
    pollsAfterSample s = s.polls + 1 := by
  simp [pollsAfterSample, h]

theorem pollsAfterSample_of_noLimit {s : State} (h : s.params.pollLimit = none) : pollsAfterSample s = s.polls := by
  simp [pollsAfterSample, h]

/-- Settles O11: only the three moves of `WB4` write `BF`, each with the level it read. -/
theorem busyFlagIsTheLastSample : Obligations.BusyFlagIsTheLastSample := by
  intro s t h
  cases step_moves h with
  | wb4Busy p hp hb hm hv => exact ⟨fun hne => absurd hp hne, fun _ => ⟨p, hb, hv.symm, rfl⟩⟩
  | wb4Ready p hp hb hm hv => exact ⟨fun hne => absurd hp hne, fun _ => ⟨p, hb, hv.symm, rfl⟩⟩
  | wb4TimesOut p hp hb hm hv => exact ⟨fun hne => absurd hp hne, fun _ => ⟨p, hb, hv.symm, rfl⟩⟩
  | dataFailed b hb hp => refine ⟨fun _ => rfl, fun h4 => ?_⟩; rcases hb with rfl | rfl | rfl <;> simp [hp] at h4
  | wb3 hp => exact ⟨fun _ => by simp, fun h4 => by simp [hp] at h4⟩
  | _ => exact ⟨fun _ => rfl, fun h4 => by simp_all⟩

/-- Settles O13: by the moves that reach each of the three sub-steps. -/
theorem addressPhaseFollowsAZeroSample : Obligations.AddressPhaseFollowsAZeroSample := by
  intro s t h
  cases step_moves h with
  | waits hp => simp [hp]
  | wb4Busy p hp => simp [hp]
  | wb4Ready p hp => simp [hp]
  | wb4TimesOut p hp hb hm hv hl => simp [hp, hl, pollsAfterSample_of_limit hl]
  | wb5 hp => simp [hp]
  | wb6Byte hp ht => simp [hp, ht]
  | _ => simp

/-- Settles O49: the three raises of the model, each with the test that leads to it; no other move reports. -/
theorem errorsCarryTheirCodes : Obligations.ErrorsCarryTheirCodes := by
  refine ⟨⟨rfl, rfl, rfl⟩, fun s t h => ?_⟩
  cases step_moves h with
  | widthBad hp hl => exact .inr (.inl (by simp [hp, hl, ErrorCode.number]))
  | dataFailed b hb hp hd =>
    refine .inr (.inr (.inl ?_))
    rcases hb with rfl | rfl | rfl <;> simp [hp, hd, State.reportedNumbers, State.faultNumber, ErrorCode.number]
  | ctrlFailed hp hd =>
    exact .inr (.inr (.inl (by simp [hp, hd, State.reportedNumbers, State.faultNumber, ErrorCode.number])))
  | wb6TimedOut hp ht hd =>
    exact .inr (.inr (.inr (by simp [hp, hd, ht, State.reportedNumbers, State.faultNumber, ErrorCode.number])))
  | wb3 => exact .inl (by simp [State.reportedNumbers, State.faultNumber])
  | _ => exact .inl ⟨rfl, rfl⟩

end Sys2Proof.Machine

/-! The sequencer's registers (`SequencerOk`) read phase by phase, and the steps that keep them in agreement
(10_state.md R19 to R24). -/

namespace Sys2Proof.Machine

/-! ### Which commands stand in which phase -/

@[simp] theorem phaseFits_idle {c : Cmd} : phaseFits c .idle ↔ c ≠ .waitReady := by
  cases c <;> simp [phaseFits]

@[simp] theorem phaseFits_fault {c : Cmd} : phaseFits c .fault ↔ c = .none := by
  cases c <;> simp [phaseFits, InConfig, InWriteCycle]

@[simp] theorem phaseFits_config {c : Cmd} {sub : ConfigStep} : phaseFits c (.config sub) ↔ c = .init := by
  cases c <;> simp [phaseFits, InConfig, InWriteCycle]

@[simp] theorem phaseFits_waitBusy {c : Cmd} {sub : BusyStep} : phaseFits c (.waitBusy sub) ↔ c ≠ .none := by
  cases c <;> simp [phaseFits]

theorem phaseFits_writeCycle {c : Cmd} {p : Phase} (hp : InWriteCycle p) :
    phaseFits c p ↔ c = .init ∨ c = .send := by
  cases p <;> simp [InWriteCycle] at hp <;> cases c <;> simp [phaseFits, InWriteCycle]

theorem InWriteCycle.ne {p q : Phase} (hp : InWriteCycle p) (hq : ¬ InWriteCycle q) : p ≠ q :=
  fun e => hq (e ▸ hp)

/-! ### `SequencerOk` by phase -/

/-- The handle is one that commands run on, and its width one that a bus can have (10_state.md R11, R14). -/
def Wired (s : State) : Prop := s.handleOk = true ∧ legalWidth s.handle

/-- What holds of a command on its way through its bytes, in every phase but `CONFIG`: it is not faulted, runs on a legal
handle, a `WAIT_READY` has no bytes, what needs `INITED` has it, and the bring-up bytes are instruction bytes. -/
structure CommandOk (s : State) : Prop where
  running : s.cmd ≠ .none
  noFault : s.fault = none
  wired : Wired s
  queueWait : s.cmd = .waitReady → s.queue = []
  needsInited : s.cmd = .waitReady ∨ s.cmd = .send → s.inited = true
  bringUpFlag : s.cmd = .init → s.curI = true

section
variable {s t : State}

theorem SequencerOk.wired_of_inited (h : SequencerOk s) (hi : s.inited = true) : Wired s :=
  ⟨h.handleOk (.inr hi), h.width (.inr hi)⟩

theorem SequencerOk.noFault (h : SequencerOk s) (hp : s.phase ≠ .fault) : s.fault = none :=
  not_not.1 fun hf => hp (h.faultPhase.2 hf)

/-- Past `CONFIG` a command in progress has all of `CommandOk`. -/
theorem SequencerOk.commandOk (h : SequencerOk s) (hc : s.cmd ≠ .none) (hp : ¬ InConfig s.phase) : CommandOk s where
  running := hc
  noFault := h.noFault fun hf => hc (by simpa [hf] using h.cmdPhase)
  wired := ⟨h.handleOk (.inl hc), h.width (.inl ⟨hc, fun e => hp (by rw [e]; trivial)⟩)⟩
  queueWait := h.queueWait
  needsInited := h.needsInited
  bringUpFlag hi := h.bringUpFlag hi hp

theorem sequencerOk_waitBusy {b : BusyStep} (hp : s.phase = .waitBusy b) :
    SequencerOk s ↔ CommandOk s ∧ (b = .wb5 ∨ b = .wb6 → s.timedOut = false → s.bf = false) ∧
      (s.timedOut = true → b = .wb5 ∨ b = .wb6) ∧
      (b = .wb4 → ∀ n, s.params.pollLimit = some n → 1 ≤ n → s.polls < n) := by
  constructor
  · intro h
    have hc : s.cmd ≠ .none := by simpa [hp] using h.cmdPhase
    exact ⟨h.commandOk hc (by simp [hp, InConfig]), fun hb ht => h.busyCleared (.inr ⟨by simpa [hp] using hb, ht⟩),
      fun ht => by simpa [hp] using h.timedOut ht, fun hb n hn h1 => h.pollsBound n hn h1 (by rw [hp, hb])⟩
  · rintro ⟨⟨hc, hf, ⟨hok, hl⟩, hqw, hi, hI⟩, hbf, ht, hpolls⟩
    constructor <;> simp_all [InWriteCycle, InConfig]

theorem sequencerOk_writeCycle (hp : InWriteCycle s.phase) :
    SequencerOk s ↔ CommandOk s ∧ s.cmd ≠ .waitReady ∧
      (s.setMask = setMaskOf s.handle s.curByte ∧ s.clrMask = clrMaskOf s.handle s.curByte) ∧
      s.bf = false ∧ s.timedOut = false := by
  have hconfig : ¬ InConfig s.phase := by revert hp; cases s.phase <;> simp [InConfig, InWriteCycle]
  have hne : ∀ q, ¬ InWriteCycle q → s.phase ≠ q := fun q => hp.ne
  constructor
  · intro h
    have hc := (phaseFits_writeCycle hp).1 h.cmdPhase
    have ht : s.timedOut = false := Bool.eq_false_iff.2 fun ht => by
      rcases h.timedOut ht with e | e | e <;> exact hne _ (by simp [InWriteCycle]) e
    exact ⟨h.commandOk (by rcases hc with e | e <;> simp [e]) hconfig, by rcases hc with e | e <;> simp [e],
      h.masks hp, h.busyCleared (.inl hp), ht⟩
  · rintro ⟨⟨hc, hf, ⟨hok, hl⟩, hqw, hi, hI⟩, hcw, hmasks, hbf, ht⟩
    have hfits : phaseFits s.cmd s.phase := by
      rw [phaseFits_writeCycle hp]; revert hc hcw; cases s.cmd <;> simp
    have hidle := hne .idle (by simp [InWriteCycle])
    have hfault := hne .fault (by simp [InWriteCycle])
    have hwb4 := hne (.waitBusy .wb4) (by simp [InWriteCycle])
    constructor <;> simp_all

theorem sequencerOk_config {c : ConfigStep} (hp : s.phase = .config c) :
    SequencerOk s ↔ s.cmd = .init ∧ s.fault = none ∧ s.handleOk = true ∧
      (c ≠ .cf0 ∨ s.inited = true → legalWidth s.handle) ∧ s.timedOut = false := by
  constructor
  · intro h
    have hc : s.cmd = .init := by simpa [hp] using h.cmdPhase
    exact ⟨hc, h.noFault (by simp [hp]), h.handleOk (by simp [hc]), fun hl => h.width (by simpa [hc, hp] using hl),
      Bool.eq_false_iff.2 fun ht => by simpa [hp] using h.timedOut ht⟩
  · rintro ⟨hc, hf, hok, hl, ht⟩
    constructor <;> simp_all [InWriteCycle, InConfig]

theorem sequencerOk_between (hp : s.phase = .idle) (hc : s.cmd ≠ .none) :
    SequencerOk s ↔ CommandOk s ∧ s.queue ≠ [] ∧ s.timedOut = false := by
  constructor
  · intro h
    exact ⟨h.commandOk hc (by simp [hp, InConfig]), fun hq => hc ((h.queueIdle hp).1 hq),
      Bool.eq_false_iff.2 fun ht => by simpa [hp] using h.timedOut ht⟩
  · rintro ⟨⟨-, hf, ⟨hok, hl⟩, hqw, hi, hI⟩, hq, ht⟩
    constructor <;> simp_all [InWriteCycle, InConfig]

theorem sequencerOk_rest (hp : s.phase = .idle) (hc : s.cmd = .none) :
    SequencerOk s ↔ s.fault = none ∧ s.queue = [] ∧ s.timedOut = false ∧ (s.inited = true → Wired s) := by
  constructor
  · intro h
    exact ⟨h.noFault (by simp [hp]), (h.queueIdle hp).2 hc,
      Bool.eq_false_iff.2 fun ht => by simpa [hp] using h.timedOut ht, h.wired_of_inited⟩
  · rintro ⟨hf, hq, ht, hi⟩
    constructor <;> simp_all [InWriteCycle, InConfig, Wired]

theorem sequencerOk_fault (hp : s.phase = .fault) :
    SequencerOk s ↔ s.cmd = .none ∧ s.fault ≠ none ∧ s.fault ≠ some .timeout ∧ s.queue = [] ∧
      (s.inited = true → Wired s) := by
  constructor
  · intro h
    exact ⟨by simpa [hp] using h.cmdPhase, h.faultPhase.1 hp, h.faultCode, h.queueFault hp, h.wired_of_inited⟩
  · rintro ⟨hc, hf, hne, hq, hi⟩
    constructor <;> simp_all [InWriteCycle, InConfig, Wired]

/-! ### The steps -/

theorem Moves.wired_iff (h : Moves s t) : Wired t ↔ Wired s := by
  rw [Wired, Wired, h.handleOk_eq, h.constants.1]

/-- A command goes on as long as a step keeps its registers. -/
theorem CommandOk.of_eq (h : CommandOk s) (hw : Wired t)
    (e : (t.cmd, t.fault, t.queue, t.inited, t.curI) = (s.cmd, s.fault, s.queue, s.inited, s.curI)) : CommandOk t := by
  obtain ⟨hc, hf, -, hqw, hi, hI⟩ := h
  simp only [Prod.mk.injEq] at e
  obtain ⟨e1, e2, e3, e4, e5⟩ := e
  constructor <;> simp_all

/-- The first handshake of a byte finds the registers in order when its command does. -/
theorem CommandOk.sequencerOk_wb0 (h : CommandOk s) (hp : s.phase = .waitBusy .wb0) (ht : s.timedOut = false) :
    SequencerOk s :=
  (sequencerOk_waitBusy hp).2 ⟨h, by simp, by simp [ht], by simp⟩

/-- A `ConfigurationError` leaves the registers in order (60_exceptions.md R195). -/
theorem SequencerOk.of_raise (h : SequencerOk s) {code : ErrorCode} (hcode : code ≠ .timeout) (hw : Wired t ↔ Wired s)
    (e : (t.phase, t.cmd, t.fault, t.queue, t.inited) = (.fault, .none, some code, [], s.inited)) : SequencerOk t := by
  simp only [Prod.mk.injEq] at e
  obtain ⟨hp, hc, hf, hq, hi⟩ := e
  exact (sequencerOk_fault hp).2 ⟨hc, by simp [hf], by simpa [hf] using hcode, hq, fun h' =>
    hw.2 (h.wired_of_inited (hi ▸ h'))⟩

/-- A sample keeps the count below the bound unless it is the one that reaches it (R130). -/
theorem pollsAfterSample_lt {n : Nat} (hn : s.params.pollLimit = some n) (hlt : s.polls < n)
    (hl : s.params.pollLimit ≠ some (pollsAfterSample s)) : pollsAfterSample s < n := by
  rw [pollsAfterSample_of_limit hn] at hl ⊢
  have : s.polls + 1 ≠ n := fun e => hl (e ▸ hn)
  omega

theorem Moves.sequencerOk (h : Moves s t) (hs : SequencerOk s) : SequencerOk t := by
  have hw := h.wired_iff
  have hh := h.handleOk_eq
  cases h with
  | waits => exact hs
  | acceptsInit rest hok hf hp hc =>
    obtain ⟨-, -, ht, hi⟩ := (sequencerOk_rest hp hc).1 hs
    exact (sequencerOk_config rfl).2 ⟨rfl, hf, hok, by simpa using fun h => (hi h).2, ht⟩
  | acceptsWait rest hok hf hp hc hi =>
    obtain ⟨-, hq, ht, hwired⟩ := (sequencerOk_rest hp hc).1 hs
    exact CommandOk.sequencerOk_wb0 ⟨by simp, hf, hw.2 (hwired hi), fun _ => hq, fun _ => hi, by simp⟩ rfl ht
  | acceptsEmpty rest f hok hf hp hc hi =>
    obtain ⟨-, -, ht, hwired⟩ := (sequencerOk_rest hp hc).1 hs
    exact (sequencerOk_rest rfl rfl).2 ⟨hf, rfl, ht, fun _ => hw.2 (hwired hi)⟩
  | acceptsSend rest f b bs hok hf hp hc hi =>
    obtain ⟨-, -, ht, hwired⟩ := (sequencerOk_rest hp hc).1 hs
    exact CommandOk.sequencerOk_wb0 ⟨by simp, hf, hw.2 (hwired hi), by simp, fun _ => hi, by simp⟩ rfl ht
  | nextByte b bs hp hc hq =>
    obtain ⟨hcmd, -, ht⟩ := (sequencerOk_between hp hc).1 hs
    refine CommandOk.sequencerOk_wb0 ⟨hc, hcmd.noFault, hw.2 hcmd.wired, fun hwait => ?_, hcmd.needsInited,
      hcmd.bringUpFlag⟩ rfl ht
    simpa [hq] using hcmd.queueWait hwait
  | nothingLeft hp hc hq => exact absurd hq ((sequencerOk_between hp hc).1 hs).2.1
  | widthOk hp hl =>
    obtain ⟨hc, hf, hok, -, ht⟩ := (sequencerOk_config hp).1 hs
    exact (sequencerOk_config rfl).2 ⟨hc, hf, hok, fun _ => hl, ht⟩
  | widthBad => exact hs.of_raise (code := .badWidth) (by simp) hw rfl
  | dataFailed => exact hs.of_raise (code := .gpioConfig) (by simp) hw rfl
  | ctrlFailed => exact hs.of_raise (code := .gpioConfig) (by simp) hw rfl
  | dataConfigured hp =>
    obtain ⟨hc, hf, hok, hl, ht⟩ := (sequencerOk_config hp).1 hs
    exact (sequencerOk_config rfl).2 ⟨hc, hf, hh.trans hok, fun _ => hl (by simp), ht⟩
  | ctrlConfigured hp =>
    obtain ⟨hc, hf, hok, hl, ht⟩ := (sequencerOk_config hp).1 hs
    exact (sequencerOk_between rfl (by simp [hc])).2
      ⟨⟨by simp [hc], hf, hw.2 ⟨hok, hl (by simp)⟩, by simp [hc], by simp [hc], by simp⟩, by simp [bringUpBytes], ht⟩
  | wb0 hp | wb1 hp | wb2 hp =>
    obtain ⟨hcmd, -, ht, -⟩ := (sequencerOk_waitBusy hp).1 hs
    exact (sequencerOk_waitBusy rfl).2 ⟨hcmd.of_eq (hw.2 hcmd.wired) rfl, by simp, by simpa using ht, by simp⟩
  | wb3 hp =>
    obtain ⟨hcmd, -, ht, -⟩ := (sequencerOk_waitBusy hp).1 hs
    refine (sequencerOk_waitBusy rfl).2
      ⟨hcmd.of_eq (hw.2 hcmd.wired) (by simp), by simp, by simpa using ht, fun _ n hn h1 => ?_⟩
    have hlimit : s.params.pollLimit = some n := by simpa using hn
    simpa [hlimit] using Nat.lt_of_lt_of_le Nat.one_pos h1
  | wb4Busy p hp hb hm hv hl =>
    obtain ⟨hcmd, -, -, hpolls⟩ := (sequencerOk_waitBusy hp).1 hs
    exact (sequencerOk_waitBusy (b := .wb4) (by exact hp)).2 ⟨hcmd.of_eq (hw.2 hcmd.wired) rfl, by simp, by simp,
      fun _ n hn h1 => pollsAfterSample_lt hn (hpolls rfl n hn h1) hl⟩
  | wb4Ready p hp =>
    obtain ⟨hcmd, -⟩ := (sequencerOk_waitBusy hp).1 hs
    exact (sequencerOk_waitBusy rfl).2 ⟨hcmd.of_eq (hw.2 hcmd.wired) rfl, by simp, by simp, by simp⟩
  | wb4TimesOut p hp =>
    obtain ⟨hcmd, -⟩ := (sequencerOk_waitBusy hp).1 hs
    exact (sequencerOk_waitBusy rfl).2 ⟨hcmd.of_eq (hw.2 hcmd.wired) rfl, by simp, by simp, by simp⟩
  | wb5 hp =>
    obtain ⟨hcmd, hbf, -⟩ := (sequencerOk_waitBusy hp).1 hs
    exact (sequencerOk_waitBusy rfl).2 ⟨hcmd.of_eq (hw.2 hcmd.wired) rfl, fun _ => hbf (.inl rfl), by simp, by simp⟩
  | wb6TimedOut hp ht =>
    obtain ⟨hcmd, -⟩ := (sequencerOk_waitBusy hp).1 hs
    exact (sequencerOk_rest rfl rfl).2 ⟨hcmd.noFault, rfl, rfl, fun _ => hw.2 hcmd.wired⟩
  | wb6Byte hp ht hc =>
    obtain ⟨hcmd, hbf, -⟩ := (sequencerOk_waitBusy hp).1 hs
    exact (sequencerOk_writeCycle (by trivial)).2 ⟨hcmd.of_eq (hw.2 hcmd.wired) rfl,
      by rcases hc with e | e <;> simp [e], ⟨rfl, rfl⟩, hbf (.inr rfl) ht, ht⟩
  | wb6Done hp ht hc =>
    obtain ⟨hcmd, -⟩ := (sequencerOk_waitBusy hp).1 hs
    have hwait := hc.resolve_right hcmd.running
    exact (sequencerOk_rest rfl rfl).2 ⟨hcmd.noFault, hcmd.queueWait hwait, ht, fun _ => hw.2 hcmd.wired⟩
  | ap0 hp | ap1 hp | dd0 hp | st0 hp =>
    obtain ⟨hcmd, hrest⟩ := (sequencerOk_writeCycle (by rw [hp]; trivial)).1 hs
    exact (sequencerOk_writeCycle (by trivial)).2 ⟨hcmd.of_eq (hw.2 hcmd.wired) rfl, hrest⟩
  | st1More hp hm hq =>
    obtain ⟨hcmd, -, -, -, ht⟩ := (sequencerOk_writeCycle (by rw [hp]; trivial)).1 hs
    exact (sequencerOk_between (by rfl) (by exact hcmd.running)).2 ⟨hcmd.of_eq (hw.2 hcmd.wired) rfl, hq, ht⟩
  | st1Done hp hm hq =>
    obtain ⟨hcmd, -, -, -, ht⟩ := (sequencerOk_writeCycle (by rw [hp]; trivial)).1 hs
    exact (sequencerOk_rest rfl rfl).2 ⟨hcmd.noFault, hq, ht, fun _ => hw.2 hcmd.wired⟩

end

/-- Settles O36: by the phases a move leaves and reaches. -/
theorem stepKeepsTheSequencerInOrder : Obligations.StepKeepsTheSequencerInOrder :=
  fun _ _ hs h => (step_moves h).sequencerOk hs

end Sys2Proof.Machine

/-! The pin directions (10_state.md R18) and the bus lines (20_memory.md R63) along every step. -/

namespace Sys2Proof.Machine

section
variable {s t : State} {p : PinId} {v : Level} {P : PinSet} {dir : Dir}

/-! ### Settings after a primitive -/

theorem hasSettings_congr (h : t.settingsOf p = s.settingsOf p) : HasSettings t dir p ↔ HasSettings s dir p := by
  unfold HasSettings; rw [h]

/-- A pin of a successful `PinConfig` has the settings of the call (R51). -/
theorem hasSettings_configure (h : t.pins = updatePins (configurePin P dir .none .off) s.pins) (hp : p ∈ P)
    (hlt : p < s.pinCount) : HasSettings t dir p := by
  obtain ⟨x, hx⟩ := settingsOf_isSome hlt
  rw [HasSettings, settingsOf_configure h, if_pos hp, hx]; rfl

theorem settingsOf_configure_of_not_mem (h : t.pins = updatePins (configurePin P dir .none .off) s.pins) (hp : p ∉ P) :
    t.settingsOf p = s.settingsOf p := by
  rw [settingsOf_configure h, if_neg hp]

theorem Wired.wellFormed (h : Wired s) : handleWellFormed s.handle s.pinCount := handleOk_iff.1 h.1

theorem Wired.data_lt (h : Wired s) (hp : p ∈ dataList s.handle) : p < s.pinCount :=
  Machine.data_lt h.wellFormed h.2 hp

theorem Wired.ctrl_not_data (h : Wired s) (hp : p ∈ ctrlList s.handle) : p ∉ dataList s.handle :=
  Machine.ctrl_not_data h.wellFormed h.2 hp

/-! ### `DirectionOk` by phase -/

/-- A command past `CONFIG` runs on configured pins. -/
theorem CommandOk.configured (h : CommandOk s) (hp : ¬ InConfig s.phase) : Configured s := by
  cases hc : s.cmd with
  | none => exact absurd hc h.running
  | init => exact .inr ⟨hc, hp⟩
  | waitReady => exact .inl (h.needsInited (.inl hc))
  | send => exact .inl (h.needsInited (.inr hc))

/-- All pins of the handle are outputs, and no other pin is configured. -/
def AllOutputs (s : State) : Prop :=
  (∀ p ∈ ctrlList s.handle, HasSettings s .output p) ∧ (∀ p ∈ dataList s.handle, HasSettings s .output p) ∧
    ∀ p, p ∉ ctrlList s.handle → p ∉ dataList s.handle → s.modeOf p = .unconf

/-- The control pins are outputs and the data pins inputs, and no other pin is configured. -/
def DataInputs (s : State) : Prop :=
  (∀ p ∈ ctrlList s.handle, HasSettings s .output p) ∧ (∀ p ∈ dataList s.handle, HasSettings s .input p) ∧
    ∀ p, p ∉ ctrlList s.handle → p ∉ dataList s.handle → s.modeOf p = .unconf

theorem DirectionOk.allOutputs (h : DirectionOk s) (hc : Configured s) (hp : s.phase ≠ .fault)
    (hin : ¬ DataPinsAreInputs s.phase) : AllOutputs s :=
  ⟨h.ctrl hc hp, h.dataOut hc hp hin, h.others⟩

theorem DirectionOk.dataInputs (h : DirectionOk s) (hc : Configured s) (hp : s.phase ≠ .fault)
    (hin : DataPinsAreInputs s.phase) : DataInputs s :=
  ⟨h.ctrl hc hp, h.dataIn hin, h.others⟩

theorem AllOutputs.directionOk (h : AllOutputs s) (hin : ¬ DataPinsAreInputs s.phase) : DirectionOk s :=
  ⟨fun _ _ => h.1, fun _ _ _ => h.2.1, fun hin' => absurd hin' hin, fun _ => h.2.1, h.2.2⟩

theorem DataInputs.directionOk (h : DataInputs s) (hin : DataPinsAreInputs s.phase) : DirectionOk s :=
  ⟨fun _ _ => h.1, fun _ _ hout => absurd hin hout, fun _ => h.2.1,
    fun hp => absurd hin (by simp [hp, DataPinsAreInputs]), h.2.2⟩

/-- In the fault state only the pins outside the handle are spoken of (log 20). -/
theorem DirectionOk.of_fault (hp : t.phase = .fault)
    (ho : ∀ p, p ∉ ctrlList t.handle → p ∉ dataList t.handle → t.modeOf p = .unconf) : DirectionOk t :=
  ⟨fun _ hne => absurd hp hne, fun _ hne => absurd hp hne, fun hin => by simp [hp, DataPinsAreInputs] at hin,
    by simp [hp], ho⟩

/-- A step that changes no settings keeps the directions, if it stays on its side of the handshake. -/
theorem DirectionOk.of_settings (h : DirectionOk s) (hset : ∀ p, t.settingsOf p = s.settingsOf p)
    (hh : t.handle = s.handle) (hconf : t.phase ≠ .fault → Configured t → Configured s ∧ s.phase ≠ .fault)
    (hin : DataPinsAreInputs t.phase ↔ DataPinsAreInputs s.phase) (hcf2 : t.phase ≠ .config .cf2) : DirectionOk t := by
  have hs : ∀ dir p, HasSettings t dir p ↔ HasSettings s dir p := fun _ p => hasSettings_congr (hset p)
  constructor <;> simp only [hs, hh, hin]
  · exact fun hc hp => h.ctrl (hconf hp hc).1 (hconf hp hc).2
  · exact fun hc hp => h.dataOut (hconf hp hc).1 (hconf hp hc).2
  · exact h.dataIn
  · exact fun hp => absurd hp hcf2
  · exact fun p hc hd => (modeOf_eq_of_settings (hset p)).trans (h.others p hc hd)

/-- The pins outside a failed call keep their settings, so those outside the handle do. -/
theorem DirectionOk.of_failedConfig (h : DirectionOk s) (hP : P = dataSet s.handle ∨ P = ctrlSet s.handle) :
    DirectionOk (s.afterFailedConfig P) :=
  .of_fault rfl fun p hc hd => (afterFailedConfig_modeOf (not_mem_of_config_set hP hc hd)).trans (h.others p hc hd)

/-! ### A `PinConfig` on the data pins -/

section
variable (hpins : t.pins = updatePins (configurePin (dataSet s.handle) dir .none .off) s.pins)
include hpins

theorem settingsOf_configureData_of_not_mem (hd : p ∉ dataList s.handle) : t.settingsOf p = s.settingsOf p :=
  settingsOf_configure_of_not_mem hpins (by simpa using hd)

variable (hh : t.handle = s.handle)
include hh

theorem hasSettings_configureData (hw : Wired s) : ∀ p ∈ dataList t.handle, HasSettings t dir p := fun p hp => by
  rw [hh] at hp
  exact hasSettings_configure hpins (by simpa using hp) (hw.data_lt hp)

theorem ctrl_configureData (hw : Wired s) (hctrl : ∀ p ∈ ctrlList s.handle, HasSettings s .output p) :
    ∀ p ∈ ctrlList t.handle, HasSettings t .output p := fun p hp => by
  rw [hh] at hp
  exact (hasSettings_congr (settingsOf_configureData_of_not_mem hpins (hw.ctrl_not_data hp))).2 (hctrl p hp)

theorem others_configureData (ho : ∀ p, p ∉ ctrlList s.handle → p ∉ dataList s.handle → s.modeOf p = .unconf) :
    ∀ p, p ∉ ctrlList t.handle → p ∉ dataList t.handle → t.modeOf p = .unconf := fun p hc hd => by
  rw [hh] at hc hd
  exact (modeOf_eq_of_settings (settingsOf_configureData_of_not_mem hpins hd)).trans (ho p hc hd)

end

/-- At the first end of the handshake the data pins become inputs (41_wait_ready.md R122). -/
theorem AllOutputs.toInputs (h : AllOutputs s) (hw : Wired s) (hh : t.handle = s.handle)
    (hpins : t.pins = updatePins (configurePin (dataSet s.handle) .input .none .off) s.pins) : DataInputs t :=
  ⟨ctrl_configureData hpins hh hw h.1, hasSettings_configureData hpins hh hw, others_configureData hpins hh h.2.2⟩

/-- At the second end they become outputs again (R122). -/
theorem DataInputs.toOutputs (h : DataInputs s) (hw : Wired s) (hh : t.handle = s.handle)
    (hpins : t.pins = updatePins (configurePin (dataSet s.handle) .output .none .off) s.pins) : AllOutputs t :=
  ⟨ctrl_configureData hpins hh hw h.1, hasSettings_configureData hpins hh hw, others_configureData hpins hh h.2.2⟩

/-- The second configuration call of `INIT` makes the control pins outputs beside the data pins (40_initialize.md
R103). -/
theorem allOutputs_configureCtrl (h : DirectionOk s) (hw : Wired s) (hp : s.phase = .config .cf2) :
    AllOutputs (queueBringUp (s.afterConfig (ctrlSet s.handle) .output .none .off)) := by
  have hset : ∀ p, p ∉ ctrlList s.handle →
      (queueBringUp (s.afterConfig (ctrlSet s.handle) .output .none .off)).settingsOf p = s.settingsOf p :=
    fun p hc => settingsOf_configure_of_not_mem rfl (by simpa using hc)
  refine ⟨fun p hc => hasSettings_configure rfl (by simpa using hc) (ctrl_lt hw.wellFormed hc), fun p hd => ?_,
    fun p hc hd => (modeOf_eq_of_settings (hset p hc)).trans (h.others p hc hd)⟩
  exact (hasSettings_congr (hset p fun hc => hw.ctrl_not_data hc hd)).2 (h.dataFirst hp p hd)

/-! ### `DirectionOk` along every step -/

theorem SequencerOk.commandOk_of_waitBusy {b : BusyStep} (h : SequencerOk s) (hp : s.phase = .waitBusy b) :
    CommandOk s := ((sequencerOk_waitBusy hp).1 h).1

theorem SequencerOk.commandOk_of_writeCycle (h : SequencerOk s) (hp : InWriteCycle s.phase) : CommandOk s :=
  ((sequencerOk_writeCycle hp).1 h).1

/-- In the handshake and in a write cycle the pins are configured and the block is not faulted. -/
theorem SequencerOk.configured_of_waitBusy {b : BusyStep} (h : SequencerOk s) (hp : s.phase = .waitBusy b) :
    Configured s ∧ s.phase ≠ .fault :=
  ⟨(h.commandOk_of_waitBusy hp).configured (by simp [hp, InConfig]), by simp [hp]⟩

theorem SequencerOk.configured_of_writeCycle (h : SequencerOk s) (hp : InWriteCycle s.phase) :
    Configured s ∧ s.phase ≠ .fault := by
  refine ⟨(h.commandOk_of_writeCycle hp).configured ?_, hp.ne (by simp [InWriteCycle])⟩
  revert hp; cases s.phase <;> simp [InConfig, InWriteCycle]

theorem Inv.allOutputs_of_wb0 (h : Inv s) (hp : s.phase = .waitBusy .wb0) : AllOutputs s :=
  have hc := h.sequencer.configured_of_waitBusy hp
  h.direction.allOutputs hc.1 hc.2 (by simp [hp, DataPinsAreInputs])

theorem Inv.allOutputs_of_writeCycle (h : Inv s) (hp : InWriteCycle s.phase) : AllOutputs s :=
  have hc := h.sequencer.configured_of_writeCycle hp
  h.direction.allOutputs hc.1 hc.2 (by revert hp; cases s.phase <;> simp [DataPinsAreInputs, InWriteCycle])

theorem Inv.dataInputs_of_waitBusy {b : BusyStep} (h : Inv s) (hp : s.phase = .waitBusy b) (hb : b ≠ .wb0) :
    DataInputs s :=
  have hc := h.sequencer.configured_of_waitBusy hp
  h.direction.dataInputs hc.1 hc.2 (by rw [hp]; cases b <;> simp_all [DataPinsAreInputs])

theorem Moves.directionOk (h : Moves s t) (hs : Inv s) : DirectionOk t := by
  have hseq := hs.sequencer
  have hdir := hs.direction
  have rest : s.phase = .idle → s.inited = true → Configured s ∧ s.phase ≠ .fault := fun hp hi =>
    ⟨.inl hi, by simp [hp]⟩
  cases h with
  | waits => exact hdir
  | acceptsInit _ _ _ hp =>
    exact hdir.of_settings (fun _ => rfl) rfl (fun _ hc => rest hp (by simpa [Configured, InConfig] using hc))
      (by simp [hp, DataPinsAreInputs]) (by simp)
  | acceptsWait _ _ _ hp _ hi | acceptsSend _ _ _ _ _ _ hp _ hi | acceptsEmpty _ _ _ _ hp _ hi =>
    exact hdir.of_settings (fun _ => rfl) rfl (fun _ _ => rest hp hi) (by simp [hp, DataPinsAreInputs]) (by simp)
  | nextByte _ _ hp hc =>
    have hcmd := ((sequencerOk_between hp hc).1 hseq).1
    exact hdir.of_settings (fun _ => rfl) rfl (fun _ _ => ⟨hcmd.configured (by simp [hp, InConfig]), by simp [hp]⟩)
      (by simp [hp, DataPinsAreInputs]) (by simp)
  | nothingLeft hp hc hq => exact absurd hq ((sequencerOk_between hp hc).1 hseq).2.1
  | widthOk hp =>
    exact hdir.of_settings (fun _ => rfl) rfl
      (fun _ hc => ⟨.inl (by simpa [Configured, InConfig] using hc), by simp [hp]⟩)
      (by simp [hp, DataPinsAreInputs]) (by simp)
  | widthBad hp => exact .of_fault rfl hdir.others
  | dataFailed => exact hdir.of_failedConfig (.inl rfl)
  | ctrlFailed => exact hdir.of_failedConfig (.inr rfl)
  | dataConfigured hp =>
    obtain ⟨-, -, hok, hl, -⟩ := (sequencerOk_config hp).1 hseq
    have hw : Wired s := ⟨hok, hl (by simp)⟩
    have hdata := hasSettings_configureData (t := (s.afterConfig (dataSet s.handle) .output .none .off).goto (.config .cf2)) rfl rfl hw
    refine ⟨fun hc _ => ctrl_configureData rfl rfl hw (hdir.ctrl (.inl ?_) (by simp [hp])), fun _ _ _ => hdata,
      fun hin => absurd hin (by simp [DataPinsAreInputs]), fun _ => hdata, others_configureData rfl rfl hdir.others⟩
    simpa [Configured, InConfig] using hc
  | ctrlConfigured hp =>
    obtain ⟨-, -, hok, hl, -⟩ := (sequencerOk_config hp).1 hseq
    exact (allOutputs_configureCtrl hdir ⟨hok, hl (by simp)⟩ hp).directionOk (by simp [DataPinsAreInputs])
  | wb0 hp =>
    exact DataInputs.directionOk ((hs.allOutputs_of_wb0 hp).toInputs (hseq.commandOk_of_waitBusy hp).wired rfl rfl) trivial
  | wb1 hp | wb2 hp | wb4Ready _ hp | wb4TimesOut _ hp | wb5 hp =>
    exact hdir.of_settings (fun _ => by simp) rfl (fun _ _ => hseq.configured_of_waitBusy hp)
      (by simp [hp, DataPinsAreInputs]) (by simp)
  | wb3 hp =>
    exact hdir.of_settings (fun _ => by simp) (by simp) (fun _ _ => hseq.configured_of_waitBusy hp)
      (by simp [hp, DataPinsAreInputs]) (by simp)
  | wb4Busy _ hp =>
    exact hdir.of_settings (fun _ => by simp) rfl (fun _ _ => hseq.configured_of_waitBusy hp) (by simp) (by simp [hp])
  | wb6TimedOut hp | wb6Byte hp | wb6Done hp =>
    exact AllOutputs.directionOk
      ((hs.dataInputs_of_waitBusy hp (by simp)).toOutputs (hseq.commandOk_of_waitBusy hp).wired rfl rfl)
      (by simp [DataPinsAreInputs])
  | ap0 hp | ap1 hp | dd0 hp | st0 hp | st1More hp | st1Done hp =>
    exact hdir.of_settings (fun _ => by simp) rfl
      (fun _ _ => hseq.configured_of_writeCycle (by rw [hp]; trivial)) (by simp [hp, DataPinsAreInputs]) (by simp)

end

/-- Settles O37: the configuration calls turn the pins they name, and no other move changes a setting. -/
theorem stepKeepsDirectionsMatchingThePhase : Obligations.StepKeepsDirectionsMatchingThePhase :=
  fun _ _ hs h => (step_moves h).directionOk hs

end Sys2Proof.Machine

/-! The bus lines (20_memory.md R63) along every step. -/

namespace Sys2Proof.Machine

section
variable {s t : State} {p q : PinId} {v : Level} {j : Nat}

/-- A written output holds the level (R52). -/
theorem latchOf_afterWrite_self (h : s.modeOf p = .output) : (s.afterWrite p v).latchOf p = some v := by
  obtain ⟨w, hw⟩ := latchOf_isSome_of_output h
  simp [hw]

theorem latchOf_afterWrite_of_ne (h : p ≠ q) : (s.afterWrite q v).latchOf p = s.latchOf p := by simp [h]

/-- The masks of a byte put each data line at its bit (42_send.md R147). -/
theorem latchOf_afterSetClear_masks {b : Byte} (hw : Wired s) (hj : (dataList s.handle)[j]? = some p)
    (hS : ∀ p ∈ setMaskOf s.handle b, s.modeOf p = .output) (hC : ∀ p ∈ clrMaskOf s.handle b, s.modeOf p = .output) :
    (s.afterSetClear (setMaskOf s.handle b) (clrMaskOf s.handle b)).latchOf p = some (b.getLsbD j) := by
  cases hb : b.getLsbD j with
  | true =>
    have hp : p ∈ setMaskOf s.handle b := mem_setMaskOf.2 ⟨j, hj, hb⟩
    obtain ⟨w, hw⟩ := latchOf_isSome_of_output (hS p hp)
    simp [hp, hw]
  | false =>
    have hp : p ∈ clrMaskOf s.handle b := mem_clrMaskOf.2 ⟨j, hj, hb⟩
    have hnot : p ∉ setMaskOf s.handle b := fun hset => by
      obtain ⟨i, hi, hbit⟩ := mem_setMaskOf.1 hset
      rw [data_index_unique hw.wellFormed hw.2 hi hj, hb] at hbit
      cases hbit
    obtain ⟨w, hw⟩ := latchOf_isSome_of_output (hC p hp)
    simp [hp, hnot, hw]

theorem latchOf_afterSetClear_of_not_data {b : Byte} (hd : p ∉ dataList s.handle) :
    (s.afterSetClear (setMaskOf s.handle b) (clrMaskOf s.handle b)).latchOf p = s.latchOf p := by
  simp [show p ∉ setMaskOf s.handle b from fun h => hd (setMaskOf_subset h),
    show p ∉ clrMaskOf s.handle b from fun h => hd (clrMaskOf_subset h)]

/-- The control pins are distinct (10_state.md R14). -/
theorem Wired.rs_ne_rw (h : Wired s) : s.handle.rsPin ≠ s.handle.rwPin := Machine.rs_ne_rw h.wellFormed
theorem Wired.rs_ne_en (h : Wired s) : s.handle.rsPin ≠ s.handle.enPin := Machine.rs_ne_en h.wellFormed
theorem Wired.rw_ne_en (h : Wired s) : s.handle.rwPin ≠ s.handle.enPin := Machine.rw_ne_en h.wellFormed

theorem Wired.data_ne_ctrl (h : Wired s) (hc : q ∈ ctrlList s.handle) (hd : p ∈ dataList s.handle) : p ≠ q :=
  fun e => h.ctrl_not_data hc (e ▸ hd)

/-- At the phases that ask for no line but enable, which rests low after a completed `INIT`. -/
theorem linesOk_of_quiet
    (hp : t.phase ∈ [.idle, .config .cf0, .config .cf1, .config .cf2, .waitBusy .wb0, .waitBusy .wb1, .fault])
    (hen : t.phase ≠ .fault → t.inited = true → t.latchOf t.handle.enPin = some false) : LinesOk t := by
  simp only [List.mem_cons, List.not_mem_nil, or_false] at hp
  rcases hp with e | e | e | e | e | e | e <;> constructor <;> simp_all

/-! What `LinesOk` asks for at each of the other phases. -/

theorem linesOk_wb2 (hp : t.phase = .waitBusy .wb2) (hrs : t.latchOf t.handle.rsPin = some false)
    (hen : t.inited = true → t.latchOf t.handle.enPin = some false) : LinesOk t := by
  constructor <;> simp_all

theorem linesOk_wb3 (hp : t.phase = .waitBusy .wb3) (hrs : t.latchOf t.handle.rsPin = some false)
    (hrw : t.latchOf t.handle.rwPin = some true)
    (hen : t.inited = true → t.latchOf t.handle.enPin = some false) : LinesOk t := by
  constructor <;> simp_all

theorem linesOk_sampling (hp : t.phase = .waitBusy .wb4 ∨ t.phase = .waitBusy .wb5)
    (hrs : t.latchOf t.handle.rsPin = some false) (hrw : t.latchOf t.handle.rwPin = some true)
    (hen : t.latchOf t.handle.enPin = some true) : LinesOk t := by
  rcases hp with e | e <;> constructor <;> simp_all

theorem linesOk_sampled (hp : t.phase = .waitBusy .wb6 ∨ t.phase = .addressPhase .ap0)
    (hrs : t.latchOf t.handle.rsPin = some false) (hrw : t.latchOf t.handle.rwPin = some true)
    (hen : t.latchOf t.handle.enPin = some false) : LinesOk t := by
  rcases hp with e | e <;> constructor <;> simp_all

theorem linesOk_ap1 (hp : t.phase = .addressPhase .ap1) (hrs : t.latchOf t.handle.rsPin = some (rsLevel t.curI))
    (hrw : t.latchOf t.handle.rwPin = some true) (hen : t.latchOf t.handle.enPin = some false) : LinesOk t := by
  constructor <;> simp_all

theorem linesOk_dd0 (hp : t.phase = .dataDrive) (hrs : t.latchOf t.handle.rsPin = some (rsLevel t.curI))
    (hrw : t.latchOf t.handle.rwPin = some false) (hen : t.latchOf t.handle.enPin = some false) : LinesOk t := by
  constructor <;> simp_all

theorem linesOk_st0 (hp : t.phase = .strobe .st0) (hrs : t.latchOf t.handle.rsPin = some (rsLevel t.curI))
    (hrw : t.latchOf t.handle.rwPin = some false) (hen : t.latchOf t.handle.enPin = some false)
    (hdata : DataLinesHold t t.curByte) : LinesOk t := by
  constructor
  case data => exact fun _ => hdata
  all_goals simp_all

theorem linesOk_st1 (hp : t.phase = .strobe .st1) (hrs : t.latchOf t.handle.rsPin = some (rsLevel t.curI))
    (hrw : t.latchOf t.handle.rwPin = some false) (hen : t.latchOf t.handle.enPin = some true)
    (hdata : DataLinesHold t t.curByte) : LinesOk t := by
  constructor
  case data => exact fun _ => hdata
  all_goals simp_all

/-- A write of register-select leaves the other lines. -/
theorem Wired.latches_writeRs (h : Wired s) :
    (s.afterWrite s.handle.rsPin v).latchOf s.handle.rwPin = s.latchOf s.handle.rwPin ∧
      (s.afterWrite s.handle.rsPin v).latchOf s.handle.enPin = s.latchOf s.handle.enPin :=
  ⟨latchOf_afterWrite_of_ne h.rs_ne_rw.symm, latchOf_afterWrite_of_ne h.rs_ne_en.symm⟩

/-- A write of read/write leaves the other lines. -/
theorem Wired.latches_writeRw (h : Wired s) :
    (s.afterWrite s.handle.rwPin v).latchOf s.handle.rsPin = s.latchOf s.handle.rsPin ∧
      (s.afterWrite s.handle.rwPin v).latchOf s.handle.enPin = s.latchOf s.handle.enPin :=
  ⟨latchOf_afterWrite_of_ne h.rs_ne_rw, latchOf_afterWrite_of_ne h.rw_ne_en.symm⟩

/-- A write of enable leaves the other lines, the data lines too. -/
theorem Wired.latches_writeEn (h : Wired s) :
    (s.afterWrite s.handle.enPin v).latchOf s.handle.rsPin = s.latchOf s.handle.rsPin ∧
      (s.afterWrite s.handle.enPin v).latchOf s.handle.rwPin = s.latchOf s.handle.rwPin ∧
      ∀ p ∈ dataList s.handle, (s.afterWrite s.handle.enPin v).latchOf p = s.latchOf p :=
  ⟨latchOf_afterWrite_of_ne h.rs_ne_en, latchOf_afterWrite_of_ne h.rw_ne_en,
    fun _ hd => latchOf_afterWrite_of_ne (h.data_ne_ctrl (enPin_mem _) hd)⟩

/-- `DD0` leaves the control lines. -/
theorem Wired.latches_setClear (h : Wired s) {b : Byte} : ∀ p ∈ ctrlList s.handle,
    (s.afterSetClear (setMaskOf s.handle b) (clrMaskOf s.handle b)).latchOf p = s.latchOf p :=
  fun _ hc => latchOf_afterSetClear_of_not_data (h.ctrl_not_data hc)

theorem mem_dataList_of_index (hj : (dataList s.handle)[j]? = some p) : p ∈ dataList s.handle :=
  mem_dataList_iff_index.2 ⟨j, hj⟩

theorem Moves.linesOk (h : Moves s t) (hs : Inv s) : LinesOk t := by
  have hl := hs.lines
  have hwb : ∀ {b}, s.phase = .waitBusy b → Wired s := fun hp => (hs.sequencer.commandOk_of_waitBusy hp).wired
  have hwc : InWriteCycle s.phase → Wired s := fun hp => (hs.sequencer.commandOk_of_writeCycle hp).wired
  cases h with
  | waits => exact hl
  | acceptsInit _ _ _ hp | acceptsWait _ _ _ hp | acceptsEmpty _ _ _ _ hp | acceptsSend _ _ _ _ _ _ hp | nextByte _ _ hp
  | widthOk hp | dataConfigured hp | ctrlConfigured hp | wb0 hp =>
    exact linesOk_of_quiet (by simp) fun _ hi => by simpa using hl.enRest hi (by simp [hp])
  | nothingLeft hp hc hq => exact absurd hq ((sequencerOk_between hp hc).1 hs.sequencer).2.1
  | widthBad | dataFailed | ctrlFailed => exact linesOk_of_quiet (by simp) (by simp)
  | wb6TimedOut hp | wb6Done hp =>
    exact linesOk_of_quiet (by simp) fun _ _ => by simpa using hl.enLow (by simp [hp])
  | st1More hp hm | st1Done hp hm => exact linesOk_of_quiet (by simp) fun _ _ => latchOf_afterWrite_self hm
  | wb1 hp hm =>
    obtain ⟨-, hen⟩ := (hwb hp).latches_writeRs (v := false)
    exact linesOk_wb2 rfl (latchOf_afterWrite_self hm) fun hi => hen.trans (hl.enRest hi (by simp [hp]))
  | wb2 hp hm =>
    obtain ⟨hrs, hen⟩ := (hwb hp).latches_writeRw (v := true)
    exact linesOk_wb3 rfl (hrs.trans (hl.busyRs (by simp [hp]))) (latchOf_afterWrite_self hm) fun hi =>
      hen.trans (hl.enRest hi (by simp [hp]))
  | wb3 hp hm =>
    obtain ⟨hrs, hrw, -⟩ := (hwb hp).latches_writeEn (v := true)
    refine linesOk_sampling (.inl rfl) ?_ ?_ ?_ <;>
      simp only [goto_latchOf, goto_handle, clearPolls_latchOf, clearPolls_handle, afterWrite_handle]
    · exact hrs.trans (hl.busyRs (by simp [hp]))
    · exact hrw.trans (hl.busyRw (by simp [hp]))
    · exact latchOf_afterWrite_self hm
  | wb4Busy _ hp | wb4Ready _ hp | wb4TimesOut _ hp =>
    exact linesOk_sampling (by simp [hp]) (hl.busyRs (by simp [hp])) (hl.busyRw (by simp [hp]))
      (hl.enHigh (by simp [hp]))
  | wb5 hp hm =>
    obtain ⟨hrs, hrw, -⟩ := (hwb hp).latches_writeEn (v := false)
    exact linesOk_sampled (.inl rfl) (hrs.trans (hl.busyRs (by simp [hp]))) (hrw.trans (hl.busyRw (by simp [hp])))
      (latchOf_afterWrite_self hm)
  | wb6Byte hp =>
    exact linesOk_sampled (.inr rfl) (afterConfig_latchOf.trans (hl.busyRs (by simp [hp])))
      (afterConfig_latchOf.trans (hl.busyRw (by simp [hp]))) (afterConfig_latchOf.trans (hl.enLow (by simp [hp])))
  | ap0 hp hm =>
    obtain ⟨hrw, hen⟩ := (hwc (by rw [hp]; trivial)).latches_writeRs (v := rsLevel s.curI)
    exact linesOk_ap1 rfl (latchOf_afterWrite_self hm) (hrw.trans (hl.busyRw (by simp [hp])))
      (hen.trans (hl.enLow (by simp [hp])))
  | ap1 hp hm =>
    obtain ⟨hrs, hen⟩ := (hwc (by rw [hp]; trivial)).latches_writeRw (v := false)
    exact linesOk_dd0 rfl (hrs.trans (hl.writeRs (by simp [hp]))) (latchOf_afterWrite_self hm)
      (hen.trans (hl.enLow (by simp [hp])))
  | dd0 hp hS hC =>
    have hcycle : InWriteCycle s.phase := by rw [hp]; trivial
    obtain ⟨hset, hclr⟩ := hs.sequencer.masks hcycle
    rw [hset] at hS ⊢
    rw [hclr] at hC ⊢
    have hkeep := (hwc hcycle).latches_setClear (b := s.curByte)
    exact linesOk_st0 rfl ((hkeep _ (rsPin_mem _)).trans (hl.writeRs (by simp [hp])))
      ((hkeep _ (rwPin_mem _)).trans (hl.writeRw (by simp [hp])))
      ((hkeep _ (enPin_mem _)).trans (hl.enLow (by simp [hp])))
      fun j p hj => latchOf_afterSetClear_masks (hwc hcycle) hj hS hC
  | st0 hp hm =>
    obtain ⟨hrs, hrw, hdata⟩ := (hwc (by rw [hp]; trivial)).latches_writeEn (v := true)
    exact linesOk_st1 rfl (hrs.trans (hl.writeRs (by simp [hp]))) (hrw.trans (hl.writeRw (by simp [hp])))
      (latchOf_afterWrite_self hm)
      fun j p hj => (hdata p (mem_dataList_of_index hj)).trans (hl.data (by simp [hp]) j p hj)

theorem Moves.inv (h : Moves s t) (hs : Inv s) : Inv t :=
  ⟨h.sequencerOk hs.sequencer, h.directionOk hs, h.linesOk hs⟩

/-- Every step keeps the invariant. -/
theorem Inv.after_step (hs : Inv s) (h : step s = .next t) : Inv t := (step_moves h).inv hs

/-- So does every run. -/
theorem Inv.after_run {k : Nat} (hs : Inv s) (h : run k s = .next t) : Inv t :=
  run_keeps (fun _ _ hs h => hs.after_step h) hs h

end

/-- Settles O38: by the one line that each move drives, the others being kept. -/
theorem stepKeepsTheLinesStable : Obligations.StepKeepsTheLinesStable :=
  fun _ _ hs h => (step_moves h).linesOk hs

/-- Settles O41: enable rises at `WB3` with register-select low and at `ST0` with read/write low. -/
theorem noReadOfTheDataRegisterIsStrobed : Obligations.NoReadOfTheDataRegisterIsStrobed := by
  intro s t hs h htrace ⟨hrs, hrw⟩
  have hlines := (hs.after_step h).lines
  rw [← (step_moves h).constants.1] at hrs hrw
  have hwb : ∀ {b}, s.phase = .waitBusy b → Wired s := fun hp => (hs.sequencer.commandOk_of_waitBusy hp).wired
  have hwc : InWriteCycle s.phase → Wired s := fun hp => (hs.sequencer.commandOk_of_writeCycle hp).wired
  cases step_moves h with
  | wb2 hp => exact (hwb hp).rw_ne_en (by simpa using htrace)
  | ap0 hp =>
    obtain ⟨e, -⟩ : s.handle.rsPin = s.handle.enPin ∧ rsLevel s.curI = true := by simpa using htrace
    exact (hwc (by rw [hp]; trivial)).rs_ne_en e
  | wb3 => simpa using (hlines.busyRs (by simp)).symm.trans hrs
  | st0 => simpa using (hlines.writeRw (by simp)).symm.trans hrw
  | _ => simp at htrace

end Sys2Proof.Machine

/-! The bits of a byte from `BUS_WIDTH` on (20_memory.md R47, 42_send.md R152): every operation takes states that differ in
them only to such states, so a step and a run do. -/

namespace Sys2Proof.Machine

/-! ### The bits that reach the pins -/

/-- Bytes with the same low bits agree on every bit index of the bus. -/
theorem getLsbD_eq_of_lowBits_eq {h : Handle} {b c : Byte} (e : lowBits h c = lowBits h b) {j : Nat}
    (hj : j < h.busWidth) : c.getLsbD j = b.getLsbD j := by
  by_cases h8 : j < 8
  · have := congrArg (fun x : Byte => x.getLsbD j) e
    simpa [lowBits, h8, hj] using this
  · rw [BitVec.getLsbD_of_ge _ _ (by omega), BitVec.getLsbD_of_ge _ _ (by omega)]

/-- The masks of a byte depend on its bits below `BUS_WIDTH` only (30_encoding.md R78). -/
theorem masks_congr {h : Handle} {b c : Byte} (e : ∀ j, j < h.busWidth → c.getLsbD j = b.getLsbD j) :
    setMaskOf h c = setMaskOf h b ∧ clrMaskOf h c = clrMaskOf h b := by
  have hbits : ∀ i, i < (dataList h).length → c.getLsbD (0 + i) = b.getLsbD (0 + i) := fun i hi => by
    rw [Nat.zero_add]; exact e i (Nat.lt_of_lt_of_le hi dataList_length_le)
  exact ⟨congrArg pinSetOf (pinsWithBit_congr hbits), congrArg pinSetOf (pinsWithBit_congr hbits)⟩

/-! ### Operations on states that differ in dropped bits -/

/-- The relation with the two registers named. -/
theorem sameLowBits_iff {s t : State} : SameLowBits s t ↔ ∃ c q, t = { s with curByte := c, queue := q } ∧
    lowBits s.handle c = lowBits s.handle s.curByte ∧ q.map (lowBits s.handle) = s.queue.map (lowBits s.handle) := by
  constructor
  · rintro ⟨e, hb, hq⟩; exact ⟨t.curByte, t.queue, e, hb, hq⟩
  · rintro ⟨c, q, rfl, hb, hq⟩; exact ⟨rfl, hb, hq⟩

theorem SameLowBits.refl (s : State) : SameLowBits s s := ⟨rfl, rfl, rfl⟩

section
variable {s t : State} (hst : SameLowBits s t)
include hst

theorem SameLowBits.handle : t.handle = s.handle := by rw [hst.1]
theorem SameLowBits.params : t.params = s.params := by rw [hst.1]
theorem SameLowBits.phase : t.phase = s.phase := by rw [hst.1]
theorem SameLowBits.cmd : t.cmd = s.cmd := by rw [hst.1]
theorem SameLowBits.curI : t.curI = s.curI := by rw [hst.1]
theorem SameLowBits.setMask : t.setMask = s.setMask := by rw [hst.1]
theorem SameLowBits.clrMask : t.clrMask = s.clrMask := by rw [hst.1]
theorem SameLowBits.fault : t.fault = s.fault := by rw [hst.1]
theorem SameLowBits.timedOut : t.timedOut = s.timedOut := by rw [hst.1]
theorem SameLowBits.port : t.port = s.port := by rw [hst.1]
theorem SameLowBits.modeOf (p : PinId) : t.modeOf p = s.modeOf p := by rw [hst.1]; rfl

end

/-- The operation takes states that differ in dropped bits only to such states. -/
def KeepsAlike (k : State → State) : Prop := ∀ s t, SameLowBits s t → SameLowBits (k s) (k t)

/-- Outcomes that differ in dropped bits only. -/
inductive Alike : Result → Result → Prop
  | next {s t : State} (h : SameLowBits s t) : Alike (.next s) (.next t)
  | fault (r : Fault) : Alike (.fault r) (.fault r)
  | refused (r : Refusal) : Alike (.refused r) (.refused r)

theorem Alike.next_left {s : State} {r : Result} (h : Alike (.next s) r) : ∃ t, r = .next t ∧ SameLowBits s t := by
  cases h with
  | next h => exact ⟨_, rfl, h⟩

section
variable {s t : State} {k : State → State}

/-- An operation that neither reads nor writes `CUR_BYTE` and `QUEUE`. -/
theorem keepsAlike_of_commutes
    (h : ∀ s c q, k { s with curByte := c, queue := q } = { k s with curByte := c, queue := q })
    (hs : ∀ s, (k s).handle = s.handle ∧ (k s).curByte = s.curByte ∧ (k s).queue = s.queue) : KeepsAlike k := by
  intro s t hst
  obtain ⟨c, q, rfl, hb, hq⟩ := sameLowBits_iff.1 hst
  obtain ⟨e1, e2, e3⟩ := hs s
  exact sameLowBits_iff.2 ⟨c, q, h s c q, by rw [e1, e2, hb], by rw [e1, e3, hq]⟩

theorem keepsAlike_goto (p : Phase) : KeepsAlike (State.goto p) :=
  keepsAlike_of_commutes (fun _ _ _ => rfl) fun _ => ⟨rfl, rfl, rfl⟩

theorem keepsAlike_withPort (ws : List PortWord) : KeepsAlike (State.withPort · ws) :=
  keepsAlike_of_commutes (fun _ _ _ => rfl) fun _ => ⟨rfl, rfl, rfl⟩

theorem keepsAlike_startInit : KeepsAlike startInit :=
  keepsAlike_of_commutes (fun _ _ _ => rfl) fun _ => ⟨rfl, rfl, rfl⟩

theorem keepsAlike_startWaitReady : KeepsAlike startWaitReady :=
  keepsAlike_of_commutes (fun _ _ _ => rfl) fun _ => ⟨rfl, rfl, rfl⟩

theorem keepsAlike_completeCommand : KeepsAlike completeCommand :=
  keepsAlike_of_commutes (fun _ _ _ => rfl) fun _ => ⟨rfl, rfl, rfl⟩

theorem keepsAlike_takeSample (v : Level) : KeepsAlike (takeSample v) :=
  keepsAlike_of_commutes (fun _ _ _ => rfl) fun _ => ⟨rfl, rfl, rfl⟩

theorem keepsAlike_clearPolls : KeepsAlike clearPolls :=
  keepsAlike_of_commutes (fun _ _ _ => by unfold clearPolls; split <;> rfl) fun _ => by simp

theorem keepsAlike_afterConfig (P : PinSet) (dir : Dir) (pull : Pull) (intr : Intr) :
    KeepsAlike (State.afterConfig P dir pull intr) :=
  keepsAlike_of_commutes (fun _ _ _ => rfl) fun _ => ⟨rfl, rfl, rfl⟩

theorem keepsAlike_afterWrite (p : PinId) (v : Level) : KeepsAlike (State.afterWrite p v) :=
  keepsAlike_of_commutes (fun _ _ _ => rfl) fun _ => ⟨rfl, rfl, rfl⟩

theorem keepsAlike_afterSetClear (S C : PinSet) : KeepsAlike (State.afterSetClear S C) :=
  keepsAlike_of_commutes (fun _ _ _ => rfl) fun _ => ⟨rfl, rfl, rfl⟩

theorem keepsAlike_afterRead (p : PinId) : KeepsAlike (State.afterRead p) :=
  keepsAlike_of_commutes (fun _ _ _ => rfl) fun _ => ⟨rfl, rfl, rfl⟩

/-- An operation that writes `QUEUE` with the same bytes whatever it held, and does not read `CUR_BYTE`. -/
theorem keepsAlike_of_queue (h : ∀ s c q, k { s with curByte := c, queue := q } = { k s with curByte := c })
    (hs : ∀ s, (k s).handle = s.handle ∧ (k s).curByte = s.curByte) : KeepsAlike k := by
  intro s t hst
  obtain ⟨c, q, rfl, hb, -⟩ := sameLowBits_iff.1 hst
  obtain ⟨e1, e2⟩ := hs s
  exact sameLowBits_iff.2 ⟨c, (k s).queue, h s c q, by rw [e1, e2, hb], rfl⟩

theorem keepsAlike_raiseConfigurationError (code : ErrorCode) : KeepsAlike (raiseConfigurationError code) :=
  keepsAlike_of_queue (fun _ _ _ => rfl) fun _ => ⟨rfl, rfl⟩

theorem keepsAlike_raiseTimeoutError : KeepsAlike raiseTimeoutError :=
  keepsAlike_of_queue (fun _ _ _ => rfl) fun _ => ⟨rfl, rfl⟩

theorem keepsAlike_afterFailedConfig (P : PinSet) : KeepsAlike (State.afterFailedConfig P) :=
  keepsAlike_of_queue (fun _ _ _ => rfl) fun _ => ⟨rfl, rfl⟩

theorem keepsAlike_queueBringUp : KeepsAlike queueBringUp :=
  keepsAlike_of_queue (fun _ _ _ => rfl) fun _ => ⟨rfl, rfl⟩

/-- The masks come from bits that reach the pins (R47), so the address phase is entered with the same ones. -/
theorem keepsAlike_beginAddressPhase : KeepsAlike beginAddressPhase := by
  intro s t hst
  obtain ⟨c, q, rfl, hb, hq⟩ := sameLowBits_iff.1 hst
  obtain ⟨hset, hclr⟩ := masks_congr fun j => getLsbD_eq_of_lowBits_eq hb
  refine sameLowBits_iff.2 ⟨c, q, ?_, hb, hq⟩
  simp [beginAddressPhase, hset, hclr]

/-- Queues that differ in dropped bits only are empty together, and so are the bytes after their heads. -/
theorem keepsAlike_beginByte : KeepsAlike beginByte := by
  intro s t hst
  obtain ⟨c, q, rfl, hb, hq⟩ := sameLowBits_iff.1 hst
  match hs : s.queue, q, hq with
  | [], [], _ =>
    rw [beginByte_nil hs, beginByte_nil (by rfl)]
    exact keepsAlike_completeCommand _ _ hst
  | b :: bs, d :: ds, hq =>
    rw [beginByte_cons hs, beginByte_cons (by rfl)]
    simp only [List.map_cons, List.cons.injEq] at hq
    exact sameLowBits_iff.2 ⟨d, ds, rfl, hq.1, hq.2⟩

theorem keepsAlike_endByte : KeepsAlike endByte := by
  intro s t hst
  have hnil : t.queue = [] ↔ s.queue = [] := by rw [← List.map_eq_nil_iff, hst.2.2, List.map_eq_nil_iff]
  by_cases hq : s.queue = []
  · rw [endByte_nil hq, endByte_nil (hnil.2 hq)]; exact keepsAlike_completeCommand _ _ hst
  · rw [endByte_of_ne hq, endByte_of_ne (hq ∘ hnil.1)]; exact keepsAlike_goto _ _ _ hst

theorem keepsAlike_afterHandshake : KeepsAlike afterHandshake := by
  intro s t hst
  unfold afterHandshake
  rw [hst.timedOut, hst.cmd]
  cases s.timedOut with
  | true => exact keepsAlike_raiseTimeoutError _ _ hst
  | false =>
    cases s.cmd with
    | init => exact keepsAlike_beginAddressPhase _ _ hst
    | send => exact keepsAlike_beginAddressPhase _ _ hst
    | waitReady => exact keepsAlike_completeCommand _ _ hst
    | none => exact keepsAlike_completeCommand _ _ hst

/-- `SEND` of bytes that agree on the bits that reach the pins. -/
theorem startSend_alike (f : Bool) {bytes bytes' : List Byte} (hst : SameLowBits s t)
    (hb : bytes'.map (lowBits s.handle) = bytes.map (lowBits s.handle)) :
    SameLowBits (startSend f bytes s) (startSend f bytes' t) := by
  obtain ⟨c, q, rfl, hc, -⟩ := sameLowBits_iff.1 hst
  exact keepsAlike_beginByte _ _ (sameLowBits_iff.2 ⟨c, bytes', rfl, hc, hb⟩)

/-! ### The primitives, the instructions and the step -/

theorem pinConfig_alike {P : PinSet} {dir : Dir} {pull : Pull} {intr : Intr} (hk : KeepsAlike k)
    (hst : SameLowBits s t) : Alike (pinConfig P dir pull intr k s) (pinConfig P dir pull intr k t) := by
  have hdraw : t.configWillFail = s.configWillFail := by rw [hst.1]; rfl
  unfold pinConfig
  rw [hdraw]
  split
  · exact .next (keepsAlike_afterFailedConfig P _ _ hst)
  · exact .next (hk _ _ (keepsAlike_afterConfig P dir pull intr _ _ hst))

theorem pinWrite_alike {p : PinId} {v : Level} (hk : KeepsAlike k) (hst : SameLowBits s t) :
    Alike (pinWrite p v k s) (pinWrite p v k t) := by
  unfold pinWrite
  rw [hst.modeOf]
  split
  · exact .next (hk _ _ (keepsAlike_afterWrite p v _ _ hst))
  · exact .refused _

theorem pinSetClear_alike {S C : PinSet} (hk : KeepsAlike k) (hst : SameLowBits s t) :
    Alike (pinSetClear S C k s) (pinSetClear S C k t) := by
  unfold pinSetClear
  simp only [hst.modeOf]
  split
  · exact .next (hk _ _ (keepsAlike_afterSetClear S C _ _ hst))
  · exact .refused _

theorem pinRead_alike {p : PinId} {k : Level → State → State} (hk : ∀ v, KeepsAlike (k v)) (hst : SameLowBits s t) :
    Alike (pinRead p k s) (pinRead p k t) := by
  have hlevel : t.nextLevel p = s.nextLevel p := by rw [hst.1]; rfl
  unfold pinRead
  rw [hst.modeOf, hlevel]
  split
  · exact .next (hk _ _ _ (keepsAlike_afterRead p _ _ hst))
  · exact .refused _

theorem accept_alike {needs : Bool} {k' : State → State} (hst : SameLowBits s t) (hk : SameLowBits (k s) (k' t)) :
    Alike (accept needs k s) (accept needs k' t) := by
  have hwhy : refusalOf needs t = refusalOf needs s := by rw [hst.1]; rfl
  unfold accept
  rw [hwhy]
  split
  · exact .refused _
  · exact .next hk

theorem busyReadStep_alike (b : BusyStep) (hst : SameLowBits s t) : Alike (busyReadStep b s) (busyReadStep b t) := by
  unfold busyReadStep
  rw [hst.handle]
  cases b with
  | wb0 => exact pinConfig_alike (keepsAlike_goto _) hst
  | wb1 => exact pinWrite_alike (keepsAlike_goto _) hst
  | wb2 => exact pinWrite_alike (keepsAlike_goto _) hst
  | wb3 => exact pinWrite_alike (fun _ _ h => keepsAlike_goto _ _ _ (keepsAlike_clearPolls _ _ h)) hst
  | wb4 =>
    cases bfPin s.handle with
    | some p => exact pinRead_alike keepsAlike_takeSample hst
    | none => exact .refused _
  | wb5 => exact pinWrite_alike (keepsAlike_goto _) hst
  | wb6 => exact pinConfig_alike keepsAlike_afterHandshake hst

theorem writeCycleStep_alike (rs : Level) (hst : SameLowBits s t) : Alike (writeCycleStep rs s) (writeCycleStep rs t) := by
  unfold writeCycleStep
  rw [hst.handle, hst.phase, hst.setMask, hst.clrMask]
  cases s.phase with
  | addressPhase a => cases a <;> exact pinWrite_alike (keepsAlike_goto _) hst
  | dataDrive => exact pinSetClear_alike (keepsAlike_goto _) hst
  | strobe a =>
    cases a with
    | st0 => exact pinWrite_alike (keepsAlike_goto _) hst
    | st1 => exact pinWrite_alike keepsAlike_endByte hst
  | _ => exact .refused _

theorem configStep_alike (c : ConfigStep) (hst : SameLowBits s t) : Alike (configStep c s) (configStep c t) := by
  unfold configStep
  rw [hst.handle]
  cases c with
  | cf0 =>
    dsimp only
    split
    · exact .next (keepsAlike_goto _ _ _ hst)
    · exact .next (keepsAlike_raiseConfigurationError _ _ _ hst)
  | cf1 => exact pinConfig_alike (keepsAlike_goto _) hst
  | cf2 => exact pinConfig_alike keepsAlike_queueBringUp hst

theorem exec_alike (i : Instr) (hst : SameLowBits s t) : Alike (exec i s) (exec i t) := by
  cases i with
  | init => exact accept_alike hst (keepsAlike_startInit _ _ hst)
  | waitReady => exact accept_alike hst (keepsAlike_startWaitReady _ _ hst)
  | send f bytes => exact accept_alike hst (startSend_alike f hst rfl)
  | sendSingle f b => exact accept_alike hst (startSend_alike f hst rfl)
  | clear => exact accept_alike hst (startSend_alike true hst (by rw [hst.params]))
  | irWrite =>
    dsimp only [exec, execIrWrite]
    rw [hst.curI]
    split
    · exact writeCycleStep_alike _ hst
    · exact .refused _
  | drWrite =>
    dsimp only [exec, execDrWrite]
    rw [hst.curI]
    split
    · exact writeCycleStep_alike _ hst
    · exact .refused _
  | busyRead =>
    dsimp only [exec, execBusyRead]
    rw [hst.phase]
    cases s.phase with
    | waitBusy b => exact busyReadStep_alike b hst
    | _ => exact .refused _

theorem step_alike_of_writeCycle (hst : SameLowBits s t) (hw : InWriteCycle s.phase) : Alike (step s) (step t) := by
  rw [step_writeCycle hw, step_writeCycle (hst.phase ▸ hw), hst.curI]
  exact writeCycleStep_alike _ hst

theorem step_alike (hst : SameLowBits s t) : Alike (step s) (step t) := by
  cases hp : s.phase with
  | idle =>
    by_cases hc : s.cmd = .none
    · rw [step_idle hp hc, step_idle (hst.phase.trans hp) (hst.cmd.trans hc), hst.port]
      cases decodePort s.port with
      | instr i rest => exact exec_alike i (keepsAlike_withPort rest _ _ hst)
      | incomplete => exact .next hst
      | rejected why => exact .refused _
    · rw [step_between hp hc, step_between (hst.phase.trans hp) (hst.cmd ▸ hc)]
      exact .next (keepsAlike_beginByte _ _ hst)
  | config c =>
    rw [step_config hp, step_config (hst.phase.trans hp)]
    exact configStep_alike c hst
  | waitBusy b =>
    rw [step_waitBusy hp, step_waitBusy (hst.phase.trans hp)]
    exact busyReadStep_alike b hst
  | addressPhase a => exact step_alike_of_writeCycle hst (by rw [hp]; trivial)
  | dataDrive => exact step_alike_of_writeCycle hst (by rw [hp]; trivial)
  | strobe a => exact step_alike_of_writeCycle hst (by rw [hp]; trivial)
  | fault =>
    rw [step_fault hp, step_fault (hst.phase.trans hp), hst.port, hst.fault]
    cases decodePort s.port with
    | instr i rest => exact exec_alike i (keepsAlike_withPort rest _ _ hst)
    | incomplete => exact .fault _
    | rejected why => exact .fault _

theorem run_alike {k : Nat} {s' : State} (hst : SameLowBits s t) (h : run k s = .next s') :
    ∃ t', run k t = .next t' ∧ SameLowBits s' t' := by
  induction k generalizing s t with
  | zero => cases h; exact ⟨t, rfl, hst⟩
  | succ k ih =>
    obtain ⟨u, hu, hr⟩ := run_succ_next h
    obtain ⟨v, hv, huv⟩ := (hu ▸ step_alike hst).next_left
    obtain ⟨t', ht, hst'⟩ := ih huv hr
    exact ⟨t', by rw [run_succ_of_step hv, ht], hst'⟩

end

/-- Settles O48: each operation keeps the relation, so a step and a run do; `SEND` enters it. -/
theorem droppedBitsAreInvisible : Obligations.DroppedBitsAreInvisible := by
  refine ⟨fun s t k s' hst h => ?_, fun s f bytes bytes' s' hb h => ?_⟩
  · obtain ⟨t', ht, hst'⟩ := run_alike hst h
    exact ⟨t', ht, hst', by rw [hst'.1], by rw [hst'.1]⟩
  · have hsend : Alike (exec (.send f bytes) s) (exec (.send f bytes') s) :=
      accept_alike (.refl s) (startSend_alike f (.refl s) hb)
    exact (h ▸ hsend).next_left

end Sys2Proof.Machine

/-! Reset, the decoded step, admission (60_exceptions.md R204) and the primitives that read, fail or are refused
(20_memory.md R51 to R56). -/

namespace Sys2Proof.Machine

/-! ### Reset -/

theorem modeOf_construct (h : Handle) (ps : Params) (n : Nat) (p : PinId) :
    (State.construct h ps n).modeOf p = .unconf := by
  simp only [State.modeOf, State.construct, getElem?_resetPinsFrom]
  by_cases hp : p < n <;> simp [hp]

/-- Settles O1: the fields of the constructed state, and the entries of its pin space. -/
theorem resetLeavesTheSpecValues : Obligations.ResetLeavesTheSpecValues := fun h ps n =>
  ⟨_, rfl, rfl, rfl, length_resetPinsFrom 0 n, modeOf_construct h ps n, rfl, rfl, rfl, rfl, rfl, rfl, rfl⟩

/-- Settles O2: at rest and not configured, so nothing is asked of the pins but that they are unconfigured. -/
theorem resetMeetsTheInvariant : Obligations.ResetMeetsTheInvariant := by
  intro h ps n
  have hconf : ¬ Configured (State.construct h ps n) := by simp [Configured, State.construct]
  refine ⟨(sequencerOk_rest (by rfl) (by rfl)).2 ⟨rfl, rfl, rfl, by simp [State.construct]⟩, ?_,
    linesOk_of_quiet (by simp [State.construct]) (by simp [State.construct])⟩
  exact ⟨fun hc => absurd hc hconf, fun hc => absurd hc hconf, fun hin => absurd hin (by simp [State.construct, DataPinsAreInputs]),
    by simp [State.construct], fun p _ _ => modeOf_construct h ps n p⟩

/-! ### The step -/

/-- Settles O7: by the step of each phase. -/
theorem stepRunsTheDecodedInstruction : Obligations.StepRunsTheDecodedInstruction := by
  intro s
  refine ⟨fun hp hc => ⟨fun i rest hd => ?_, fun hd => ?_⟩, fun ⟨b, hp⟩ => ?_, fun hw => ?_⟩
  · rw [step_idle hp hc, hd]; rfl
  · rw [step_idle hp hc, hd]
  · rw [step_waitBusy hp, exec_busyRead hp]
  · rw [step_writeCycle hw]
    cases hI : s.curI
    · simp [exec_drWrite hI, rsLevel]
    · simp [exec_irWrite hI, rsLevel]

/-- Settles O34: each bus cycle tests its phase, and a write cycle `CUR_I`. -/
theorem busCyclesRunOnlyWhereGenerated : Obligations.BusCyclesRunOnlyWhereGenerated := by
  intro s
  have hwrite : ∀ rs, ¬ InWriteCycle s.phase → writeCycleStep rs s = .refused .cycleNotInProgress := fun rs hw => by
    unfold writeCycleStep; cases hp : s.phase <;> simp_all [InWriteCycle]
  refine ⟨fun hb => ?_, fun h => ?_, fun h => ?_⟩
  · show execBusyRead s = _
    unfold execBusyRead; cases hp : s.phase <;> simp_all
  · show execIrWrite s = _
    unfold execIrWrite
    split
    next hI => exact hwrite _ (h.resolve_right (by simp [hI]))
    next => rfl
  · show execDrWrite s = _
    unfold execDrWrite
    split
    next hI => exact hwrite _ (h.resolve_right (by simp [hI]))
    next => rfl

/-- In the fault state the step answers no next state (60_exceptions.md R195). -/
theorem step_fault_ne_next {s t : State} (hp : s.phase = .fault) : step s ≠ .next t := by
  rw [step_fault hp]
  cases decodePort s.port with
  | instr i rest => exact exec_fault_ne_next (s := s.withPort rest) hp i
  | incomplete => simp
  | rejected why => simp

/-- Settles O27: neither the step nor an instruction is admitted there. -/
theorem faultStateIsAbsorbing : Obligations.FaultStateIsAbsorbing :=
  fun s hp => ⟨fun _ => step_fault_ne_next hp, fun i _ => exec_fault_ne_next hp i, fun hd => by rw [step_fault hp, hd]⟩

/-! ### Admission -/

/-- The five commands are admitted by the one test, which asks for `INITED` of all but `INIT` (R204). -/
theorem exec_command {s : State} {f : Bool} {bytes : List Byte} {b : Byte} {i : Instr}
    (hi : i ∈ [Instr.init, .waitReady, .send f bytes, .sendSingle f b, .clear]) :
    ∃ k, exec i s = accept (decide (i ≠ .init)) k s := by
  simp only [List.mem_cons, List.not_mem_nil, or_false] at hi
  rcases hi with rfl | rfl | rfl | rfl | rfl <;> exact ⟨_, rfl⟩

theorem accept_refused {needs : Bool} {k : State → State} {s : State} {why : Refusal}
    (h : refusalOf needs s = some why) : accept needs k s = .refused why := by
  rw [accept, h]

/-- Settles O19: the grounds are tested in order, and nothing else is. -/
theorem commandsAreRefusedExactlyWhenNotAdmitted : Obligations.CommandsAreRefusedExactlyWhenNotAdmitted := by
  intro s f bytes b i hi
  obtain ⟨k, hk⟩ := exec_command (s := s) hi
  rw [hk]
  refine ⟨fun hok => ?_, fun hok hf => ?_, fun hok hf hbusy => ?_, fun ha hin hne => ?_, fun ha hin => ?_⟩
  · exact accept_refused (by simp [refusalOf, hok])
  · exact accept_refused (by simp [refusalOf, hok, hf])
  · exact accept_refused (by simp [refusalOf, hok, hf, hbusy])
  · rw [decide_eq_true hne]
    exact accept_of_notInitialised ha hin
  · obtain ⟨hok, hf, hp, hc⟩ := ha
    exact ⟨_, accept_of_ok hok hf hp hc fun hne => hin.resolve_right (of_decide_eq_true hne)⟩

/-- Without a completed `INIT` some ground of R204 holds for every other command. -/
theorem accept_refused_of_notInited {k : State → State} {s : State} (hi : s.inited = false) :
    ∃ why, accept true k s = .refused why := by
  cases hr : refusalOf true s with
  | some why => exact ⟨why, accept_refused hr⟩
  | none =>
    obtain ⟨-, -, -, -, hinited⟩ := refusalOf_none_iff.1 hr
    exact absurd (hinited rfl) (by simp [hi])

/-- The last sub-step of an `INIT`: `ST1` with no byte left (log 30). -/
def EndsInit (s : State) : Prop := s.cmd = .init ∧ s.phase = .strobe .st1 ∧ s.queue = []

theorem initedAfter_of_ne {c : Cmd} {inited : Bool} (h : c ≠ .init) : initedAfter c inited = inited := by
  cases c with
  | init => exact absurd rfl h
  | _ => rfl

/-- The last step of an `INIT` sets `INITED`, and every other move keeps it. -/
theorem Moves.inited {s t : State} (h : Moves s t) (hs : SequencerOk s) :
    (EndsInit s ∧ t.inited = true ∧ t.cmd = .none ∧ t.phase = .idle) ∨ (¬ EndsInit s ∧ t.inited = s.inited) := by
  have hno : s.phase ≠ .strobe .st1 → ¬ EndsInit s := fun hp he => hp he.2.1
  cases h with
  | nothingLeft hp hc hq => exact absurd hq ((sequencerOk_between hp hc).1 hs).2.1
  | dataFailed b hb hp => exact .inr ⟨hno (by rcases hb with rfl | rfl | rfl <;> simp [hp]), rfl⟩
  | wb3 hp => exact .inr ⟨hno (by simp [hp]), by simp⟩
  | wb6Done hp ht hc => exact .inr ⟨hno (by simp [hp]), initedAfter_of_ne (by rcases hc with e | e <;> simp [e])⟩
  | st1More hp hm hq => exact .inr ⟨fun he => hq he.2.2, rfl⟩
  | st1Done hp hm hq =>
    by_cases hc : s.cmd = .init
    · exact .inl ⟨⟨hc, hp, hq⟩, by simp [hc, initedAfter], rfl, rfl⟩
    · exact .inr ⟨fun he => hc he.1, initedAfter_of_ne hc⟩
  | _ => exact .inr ⟨hno (by simp [*]), rfl⟩

/-- Settles O12: by what the moves do to `INITED`, and the admission test. -/
theorem initedIsSetByInitOnly : Obligations.InitedIsSetByInitOnly := by
  refine ⟨fun s t hs h => ?_, fun s hi f bytes b i hmem => ?_⟩
  · rcases (step_moves h).inited hs with ⟨⟨hc, hp, hq⟩, hi, hc', hp'⟩ | ⟨hno, hi⟩
    · exact ⟨fun _ => hi, fun _ _ _ => hi, fun _ _ => ⟨hc, hp, hq, hc', hp'⟩⟩
    · exact ⟨hi.trans, fun hc hp hq => absurd ⟨hc, hp, hq⟩ hno, fun h0 h1 => by simp [hi, h0] at h1⟩
  · simp only [List.mem_cons, List.not_mem_nil, or_false] at hmem
    rcases hmem with rfl | rfl | rfl | rfl <;> exact accept_refused_of_notInited hi

/-- Settles O14: `INIT` starts its configuration. -/
theorem initIsAccepted : Obligations.InitIsAccepted := fun _ ha => exec_init_of_accepting ha

/-- Settles O15: an initialised block accepts the command. -/
theorem waitReadyStartsAHandshake : Obligations.WaitReadyStartsAHandshake :=
  fun _ ha hi => accept_of_accepting true ha hi

/-- Settles O16: an initialised block accepts the commands, and the first byte is loaded at once. -/
theorem sendStartsItsFirstByte : Obligations.SendStartsItsFirstByte := fun _ ha hi =>
  ⟨fun _ _ _ => accept_of_accepting true ha hi, fun _ _ => accept_of_accepting true ha hi,
    accept_of_accepting true ha hi⟩

/-! ### The primitives -/

section
variable {s : State} {P : PinSet} {dir : Dir}

/-- What `PinConfig` does to the pin space (R51). -/
theorem configuresPins_afterConfig : ConfiguresPins s (s.afterConfig P dir .none .off) P dir :=
  ⟨fun _ hp hlt => hasSettings_configure rfl hp hlt, fun _ => afterConfig_latchOf,
    fun _ hp => getElem?_configure_of_not_mem rfl hp⟩

/-- What a failed `PinConfig` leaves (R53, 60_exceptions.md R195). -/
theorem faultsInConfig_afterFailedConfig : FaultsInConfig s (s.afterFailedConfig P) P :=
  ⟨rfl, fun _ => afterFailedConfig_latchOf, fun _ hp => getElem?_scramble_of_not_mem (n := s.draws) rfl hp⟩

end

/-- Settles O22: the call goes one of its two ways. -/
theorem pinConfigSucceedsOrFaults : Obligations.PinConfigSucceedsOrFaults := fun s P dir _ =>
  ⟨fun hd => ⟨s.afterConfig P dir .none .off, pinConfig_of_ok hd, rfl, configuresPins_afterConfig⟩,
    fun hd => ⟨s.afterFailedConfig P, pinConfig_of_fails hd, faultsInConfig_afterFailedConfig⟩⟩

/-- Settles O23: the read takes the next answer, the head of the list where there is one. -/
theorem pinReadTakesTheEnvironmentsLevel : Obligations.PinReadTakesTheEnvironmentsLevel :=
  fun _ _ _ hm => ⟨pinRead_of_input hm, fun _ _ hsamples => by simp [State.nextLevel, hsamples]⟩

/-- Settles O24: each of the three tests the mode. -/
theorem primitivesAgainstTheModeAreRefused : Obligations.PrimitivesAgainstTheModeAreRefused := by
  intro s p v S C k r
  refine ⟨fun hm => if_neg hm, fun hm hp => if_neg fun ⟨hS, hC⟩ => ?_, fun hm => if_neg hm⟩
  exact hm (hp.elim (hS p) (hC p))

/-- Settles O26: each of the four sub-steps is one call. -/
theorem failedConfigurationFaultsAtEachStep : Obligations.FailedConfigurationFaultsAtEachStep := by
  intro s hd
  refine ⟨fun hp => ⟨s.afterFailedConfig (dataSet s.handle), ?_, faultsInConfig_afterFailedConfig⟩,
    fun hp => ⟨s.afterFailedConfig (ctrlSet s.handle), ?_, faultsInConfig_afterFailedConfig⟩⟩
  · rcases hp with hp | hp | hp
    · rw [step_config hp, configStep, pinConfig_of_fails hd]
    · rw [step_waitBusy hp, busyReadStep, pinConfig_of_fails hd]
    · rw [step_waitBusy hp, busyReadStep, pinConfig_of_fails hd]
  · rw [step_config hp, configStep, pinConfig_of_fails hd]

end Sys2Proof.Machine

/-! The bus cycles sub-step by sub-step (41_wait_ready.md R121 to R124, 43_bus_cycles.md R171), their frame, and the masks
of a byte (30_encoding.md R78). -/

namespace Sys2Proof.Machine

/-! ### `BUSY_READ` -/

/-- What `WB3` does to the count of polls, as one update (41_wait_ready.md R130). -/
theorem clearPolls_eq (s : State) :
    clearPolls s = { s with polls := if s.params.pollLimit = none then s.polls else 0 } := by
  unfold clearPolls; cases h : s.params.pollLimit <;> simp

/-- Settles O29: each of the four is one `PinWrite`. -/
theorem busyReadDrivesTheControlLines : Obligations.BusyReadDrivesTheControlLines := by
  intro s
  refine ⟨fun hp hm => ⟨_, (exec_busyRead hp).trans (busyRead_wb1 hm), rfl, drivesPin_afterWrite hm⟩,
    fun hp hm => ⟨_, (exec_busyRead hp).trans (busyRead_wb2 hm), rfl, drivesPin_afterWrite hm⟩,
    fun hp hm => ⟨_, (exec_busyRead hp).trans (busyRead_wb3 hm), ?_⟩,
    fun hp hm => ⟨_, (exec_busyRead hp).trans (busyRead_wb5 hm), rfl, drivesPin_afterWrite hm⟩⟩
  rw [clearPolls_eq]
  exact ⟨rfl, drivesPin_afterWrite hm⟩

section
variable {s : State}

/-- The end of a handshake inside a byte. -/
theorem afterHandshake_of_byte (ht : s.timedOut = false) (hc : s.cmd = .init ∨ s.cmd = .send) :
    afterHandshake s = beginAddressPhase s := by
  rcases hc with hc | hc <;> simp [afterHandshake, ht, hc]

/-- The end of the handshake of `WAIT_READY`. -/
theorem afterHandshake_of_waitReady (ht : s.timedOut = false) (hc : s.cmd = .waitReady) :
    afterHandshake s = completeCommand s := by
  simp [afterHandshake, ht, hc]

/-- The end of a handshake that reached `POLL_LIMIT`. -/
theorem afterHandshake_of_timeout (ht : s.timedOut = true) : afterHandshake s = raiseTimeoutError s := by
  simp [afterHandshake, ht]

/-- Whichever way a handshake ends, it changes neither a pin nor these registers. -/
theorem afterHandshake_keeps : (afterHandshake s).pins = s.pins ∧ (afterHandshake s).trace = s.trace ∧
    (afterHandshake s).curByte = s.curByte ∧ (afterHandshake s).curI = s.curI ∧ (afterHandshake s).bf = s.bf ∧
    (afterHandshake s).fault = s.fault ∧ (afterHandshake s).port = s.port := by
  unfold afterHandshake
  split
  · simp
  · split <;> simp

theorem afterHandshake_handle : (afterHandshake s).handle = s.handle := by
  unfold afterHandshake
  split
  · rfl
  · split <;> rfl

theorem configuresPins_congr {t u : State} {P : PinSet} {dir : Dir} (h : u.pins = t.pins)
    (ht : ConfiguresPins s t P dir) : ConfiguresPins s u P dir := by
  obtain ⟨hset, hlatch, hother⟩ := ht
  exact ⟨fun p hp hlt => (settingsOf_congr h).trans (hset p hp hlt), fun p => (latchOf_congr h).trans (hlatch p),
    fun q hq => by rw [h]; exact hother q hq⟩

end

/-- Settles O30: each end of the handshake is one `PinConfig`, and the second goes on by the timeout and the command. -/
theorem busyReadTurnsTheDataPins : Obligations.BusyReadTurnsTheDataPins := by
  intro s hd
  refine ⟨fun hp => ⟨_, (exec_busyRead hp).trans (busyRead_wb0 hd), rfl, configuresPins_afterConfig⟩,
    fun hp => ⟨_, (exec_busyRead hp).trans (busyRead_wb6 hd), ?_⟩⟩
  obtain ⟨hpins, htrace, hbyte, hI, hbf, hf, hport⟩ :=
    afterHandshake_keeps (s := s.afterConfig (dataSet s.handle) .output .none .off)
  refine ⟨htrace, configuresPins_congr hpins configuresPins_afterConfig, hbyte, hI, hbf, hf, hport,
    fun ht hc => ?_, fun ht hc => ?_, fun ht => ?_⟩
  · rw [afterHandshake_of_byte (by exact ht) (by exact hc)]
    exact ⟨rfl, rfl, rfl, rfl, rfl, rfl, rfl⟩
  · rw [afterHandshake_of_waitReady (by exact ht) (by exact hc)]
    exact ⟨rfl, rfl, rfl, by simp [hc, initedAfter], rfl, rfl, rfl⟩
  · rw [afterHandshake_of_timeout (by exact ht)]
    exact ⟨rfl, rfl, rfl, rfl, rfl, rfl, rfl, rfl⟩

/-- Settles O31: one `PinRead`, then the test of the loop. -/
theorem busyReadSamplesTheBusyPin : Obligations.BusyReadSamplesTheBusyPin := by
  intro s p hp hb hm
  refine ⟨_, (exec_busyRead hp).trans (busyRead_wb4 hb hm), rfl, fun hl => ?_, fun n hl => ?_⟩
  · have hpolls : pollsAfterSample (s.afterRead p) = s.polls := pollsAfterSample_of_noLimit hl
    cases hv : s.nextLevel p <;> simp [hpolls, sampleTimesOut, hl]
  · have hpolls : pollsAfterSample (s.afterRead p) = s.polls + 1 := pollsAfterSample_of_limit hl
    cases hv : s.nextLevel p <;> by_cases hn : s.polls + 1 = n <;>
      simp [hpolls, sampleTimesOut, hl, hn, eq_comm (a := n)]

/-! ### The write cycles -/

/-- Both write cycles are the one cycle, at their level of register-select (43_bus_cycles.md R171). -/
theorem exec_writeCycle {s : State} {i : Instr} {rs : Level}
    (h : (i = .irWrite ∧ s.curI = true ∧ rs = false) ∨ (i = .drWrite ∧ s.curI = false ∧ rs = true)) :
    exec i s = writeCycleStep rs s := by
  rcases h with ⟨rfl, hI, rfl⟩ | ⟨rfl, hI, rfl⟩
  · exact exec_irWrite hI
  · exact exec_drWrite hI

/-- The end of a byte, as one update. -/
theorem endByte_eq (s : State) :
    endByte s = { s with
      phase := .idle, cmd := if s.queue = [] then .none else s.cmd,
      inited := if s.queue = [] then initedAfter s.cmd s.inited else s.inited } := by
  unfold endByte
  split <;> simp [*, completeCommand, State.goto]

theorem endByte_keeps_cmd {s : State} (h : s.queue ≠ []) : (endByte s).cmd = s.cmd ∧ (endByte s).inited = s.inited := by
  rw [endByte_of_ne h]; exact ⟨rfl, rfl⟩

theorem endByte_completes {s : State} (h : s.queue = []) :
    (endByte s).cmd = .none ∧ ((endByte s).inited = true ↔ s.inited = true ∨ s.cmd = .init) := by
  rw [endByte_nil h]
  refine ⟨rfl, ?_⟩
  cases hc : s.cmd <;> simp [hc, initedAfter]

theorem drivesPin_congr {s t u : State} {p : PinId} {v : Level} (h : u.pins = t.pins) (ht : DrivesPin s t p v) :
    DrivesPin s u p v := by
  obtain ⟨hlatch, hset, hother⟩ := ht
  exact ⟨(latchOf_congr h).trans hlatch, (settingsOf_congr h).trans hset, fun q hq => by rw [h]; exact hother q hq⟩

/-- Settles O32: each sub-step is one primitive, and the last ends the byte. -/
theorem writeCyclesDriveTheBus : Obligations.WriteCyclesDriveTheBus := by
  intro s i rs hi
  rw [exec_writeCycle hi]
  refine ⟨fun hp hm => ⟨_, writeCycle_ap0 hp hm, rfl, drivesPin_afterWrite hm⟩,
    fun hp hm => ⟨_, writeCycle_ap1 hp hm, rfl, drivesPin_afterWrite hm⟩, fun hp hdisj hm => ?dd0,
    fun hp hm => ⟨_, writeCycle_st0 hp hm, rfl, drivesPin_afterWrite hm⟩, fun hp hm => ?st1⟩
  case dd0 =>
    have hS : ∀ p ∈ s.setMask, s.modeOf p = .output := fun p h => hm p (.inl h)
    have hC : ∀ p ∈ s.clrMask, s.modeOf p = .output := fun p h => hm p (.inr h)
    exact ⟨_, writeCycle_dd0 hp hS hC, rfl, drivesPins_afterSetClear hdisj hS hC⟩
  case st1 =>
    refine ⟨_, writeCycle_st1 hp hm, ?_, drivesPin_congr (endByte_pins _) (drivesPin_afterWrite hm),
      fun hq => endByte_keeps_cmd hq, fun hq => endByte_completes hq⟩
    rw [endByte_eq]
    rfl

/-! ### The frame of the bus cycles -/

section
variable {s t : State}

/-- A `BUSY_READ` that runs is a step of the block, in `WAIT_BUSY`. -/
theorem step_of_exec_busyRead (h : exec .busyRead s = .next t) : (∃ b, s.phase = .waitBusy b) ∧ step s = .next t := by
  have h' : execBusyRead s = .next t := h
  unfold execBusyRead at h'
  split at h'
  next b hp => exact ⟨⟨b, hp⟩, by rw [step_waitBusy hp]; exact h'⟩
  all_goals cases h'

theorem inWriteCycle_of_next {rs : Level} (h : writeCycleStep rs s = .next t) : InWriteCycle s.phase := by
  unfold writeCycleStep at h
  cases hp : s.phase <;> simp_all [InWriteCycle]

/-- A write cycle that runs is a step of the block, in its phases. -/
theorem step_of_exec_writeCycle {i : Instr} (hi : i ∈ [Instr.irWrite, .drWrite]) (h : exec i s = .next t) :
    InWriteCycle s.phase ∧ step s = .next t := by
  have key : writeCycleStep (rsLevel s.curI) s = .next t := by
    simp only [List.mem_cons, List.not_mem_nil, or_false] at hi
    rcases hi with rfl | rfl
    · have h' : execIrWrite s = .next t := h
      unfold execIrWrite at h'
      split at h'
      next hI => rwa [hI]
      next => cases h'
    · have h' : execDrWrite s = .next t := h
      unfold execDrWrite at h'
      split at h'
      next hI => rwa [hI]
      next => cases h'
  exact ⟨inWriteCycle_of_next key, (step_writeCycle (inWriteCycle_of_next key)).trans key⟩

/-- In `WAIT_BUSY` a primitive changes the latches of control pins and the settings of data pins only. -/
theorem Issues.waitBusy_frame {b : BusyStep} (h : Issues s t) (hp : s.phase = .waitBusy b) :
    (∀ p, p ∉ ctrlList s.handle → t.latchOf p = s.latchOf p) ∧
      ∀ p, p ∉ dataList s.handle → t.settingsOf p = s.settingsOf p := by
  have hdata : ∀ {P p}, P = dataSet s.handle ∨ P = ctrlSet s.handle ∧ s.phase = .config .cf2 →
      p ∉ dataList s.handle → p ∉ P := fun hP hd => by
    rcases hP with rfl | ⟨-, hc⟩
    · simpa using hd
    · simp [hp] at hc
  cases h with
  | nothing hpins => exact ⟨fun _ _ => latchOf_congr hpins, fun _ _ => settingsOf_congr hpins⟩
  | read _ hpins => exact ⟨fun _ _ => latchOf_congr hpins, fun _ _ => settingsOf_congr hpins⟩
  | config P dir hP hpins =>
    exact ⟨fun _ _ => latchOf_configure hpins, fun _ hd => settingsOf_configure_of_not_mem hpins (hdata hP hd)⟩
  | failedConfig P hP hpins =>
    exact ⟨fun _ _ => latchOf_scramble hpins, fun _ hd => settingsOf_scramble_of_not_mem hpins (hdata hP hd)⟩
  | write q v hq hpins =>
    exact ⟨fun p hc => (latchOf_latchPin hpins).trans (if_neg fun e : p = q => hc (e ▸ hq)),
      fun _ _ => settingsOf_latchPin hpins⟩
  | setClear hphase => simp [hp] at hphase

/-- The registers a `BUSY_READ` keeps, however it ends (41_wait_ready.md R128). -/
theorem Moves.waitBusy_keeps {b : BusyStep} (h : Moves s t) (hp : s.phase = .waitBusy b) :
    t.curByte = s.curByte ∧ t.curI = s.curI ∧ t.inited = s.inited ∧ t.port = s.port := by
  cases h with
  | wb3 => simp
  | wb6Done _ _ hc => exact ⟨rfl, rfl, initedAfter_of_ne (by rcases hc with e | e <;> simp [e]), rfl⟩
  | wb0 | wb1 | wb2 | wb4Busy | wb4Ready | wb4TimesOut | wb5 | wb6TimedOut | wb6Byte | dataFailed =>
    exact ⟨rfl, rfl, rfl, rfl⟩
  | _ => simp_all

/-- A write cycle changes latches of the control pins and of the masks, and the registers `PHASE`, `CMD`, `INITED` and
`TRACE`. -/
theorem Moves.writeCycle_frame (h : Moves s t) (hw : InWriteCycle s.phase) :
    ((∃ p ∈ ctrlList s.handle, ∃ v, t.pins = updatePins (latchPin p v) s.pins) ∨
      t.pins = updatePins (latchSets s.setMask s.clrMask) s.pins) ∧
      t = { s with pins := t.pins, phase := t.phase, cmd := t.cmd, inited := t.inited, trace := t.trace } := by
  cases h with
  | ap0 => exact ⟨.inl ⟨_, rsPin_mem _, _, rfl⟩, rfl⟩
  | ap1 => exact ⟨.inl ⟨_, rwPin_mem _, _, rfl⟩, rfl⟩
  | dd0 => exact ⟨.inr rfl, rfl⟩
  | st0 | st1More | st1Done => exact ⟨.inl ⟨_, enPin_mem _, _, rfl⟩, rfl⟩
  | dataFailed b hb hp => rcases hb with rfl | rfl | rfl <;> simp [hp, InWriteCycle] at hw
  | _ => simp_all [InWriteCycle]

end

/-- Settles O33: by the primitive that a sub-step issues and the registers it keeps. -/
theorem busCyclesKeepEverythingElse : Obligations.BusCyclesKeepEverythingElse := by
  refine fun s t => ⟨fun h => ?_, fun i hi h => ?_⟩
  · obtain ⟨⟨b, hp⟩, hstep⟩ := step_of_exec_busyRead h
    have hmoves := step_moves hstep
    obtain ⟨hh, hparams, -⟩ := hmoves.constants
    obtain ⟨hlatch, hset⟩ := hmoves.issues.waitBusy_frame hp
    obtain ⟨hbyte, hI, hi, hport⟩ := hmoves.waitBusy_keeps hp
    exact ⟨hlatch, fun p hc hd => hmoves.issues.getElem?_of_not_mem hc hd (by simp [hp]), hset, hh, hparams, hbyte, hI,
      hi, hport⟩
  · obtain ⟨hw, hstep⟩ := step_of_exec_writeCycle hi h
    obtain ⟨hpins, ht⟩ := (step_moves hstep).writeCycle_frame hw
    have hset : ∀ p, t.settingsOf p = s.settingsOf p := fun p => by
      rcases hpins with ⟨q, hq, v, hpins⟩ | hpins
      · exact settingsOf_latchPin hpins
      · exact settingsOf_latchSets hpins
    have hother : ∀ p, p ∉ ctrlList s.handle → p ∉ s.setMask → p ∉ s.clrMask → t.pins[p]? = s.pins[p]? :=
      fun p hc hS hC => by
        rcases hpins with ⟨q, hq, v, hpins⟩ | hpins
        · rw [hpins]; exact afterWrite_getElem?_of_ne (v := v) fun e => hc (e ▸ hq)
        · rw [hpins]; exact afterSetClear_getElem?_of_not_mem hS hC
    refine ⟨hset, hother, ?_⟩
    rw [ht]
    simp

/-! ### Masks -/

/-- Sorting pins that are all different only orders them. -/
theorem pinSetOf_perm {ps : List PinId} (h : ps.Nodup) : (pinSetOf ps).Perm ps :=
  (List.perm_ext_iff_of_nodup ((pinSetOf_ascending ps).imp fun hlt => Nat.ne_of_lt hlt) h).2 fun _ => mem_pinSetOf

theorem maskNumber_eq_sum (P : PinSet) : maskNumber P = (P.map (2 ^ ·)).sum := by
  induction P with
  | nil => rfl
  | cons p ps ih => simp [maskNumber, ih]

theorem pinsWithBit_sublist (b : Byte) (v : Bool) (j : Nat) (ps : List PinId) : (pinsWithBit b v j ps).Sublist ps := by
  induction ps generalizing j with
  | nil => exact .slnil
  | cons p ps ih =>
    unfold pinsWithBit
    split
    · exact (ih _).cons_cons p
    · exact (ih _).cons p

/-- One pin for each index whose bit is 1. -/
theorem length_pinsWithBit (b : Byte) (j : Nat) (ps : List PinId) :
    (pinsWithBit b true j ps).length = ((List.range ps.length).filter fun i => b.getLsbD (j + i)).length := by
  induction ps generalizing j with
  | nil => rfl
  | cons p ps ih =>
    have hrest := ih (j + 1)
    rw [List.length_cons, List.range_succ_eq_map, List.filter_cons, List.filter_map, pinsWithBit]
    cases b.getLsbD j <;> simp [hrest, Function.comp_def, Nat.add_right_comm, Nat.add_assoc]

/-- Settles O35: a data pin stands at one index, so one bit decides its mask; a mask is a permutation of the pins listed by
bit. -/
theorem masksSplitTheDataPinsByBit : Obligations.MasksSplitTheDataPinsByBit := by
  intro h n b hw hl
  have hperm := pinSetOf_perm ((pinsWithBit_sublist b true 0 (dataList h)).nodup (dataList_nodup hw hl))
  have hbit : ∀ {v j p}, (dataList h)[j]? = some p →
      ((∃ i : Nat, (dataList h)[i]? = some p ∧ b.getLsbD i = v) ↔ b.getLsbD j = v) := fun hj =>
    ⟨fun ⟨i, hi, hv⟩ => data_index_unique hw hl hi hj ▸ hv, fun hv => ⟨_, hj, hv⟩⟩
  refine ⟨fun p hS hC => ?_, fun p => ⟨fun hp => ?_, fun hp => ?_⟩, fun j p hj hp => ?_, ?_, ?_, fun c hc => masks_congr hc⟩
  · obtain ⟨j, hj, hv⟩ := mem_setMaskOf.1 hS
    have := (hbit hj).1 (mem_clrMaskOf.1 hC)
    simp [hv] at this
  · exact mem_dataSet.2 (hp.elim setMaskOf_subset clrMaskOf_subset)
  · obtain ⟨j, hj⟩ := mem_dataList_iff_index.1 (mem_dataSet.1 hp)
    cases hv : b.getLsbD j
    · exact .inr (mem_clrMaskOf.2 ⟨j, hj, hv⟩)
    · exact .inl (mem_setMaskOf.2 ⟨j, hj, hv⟩)
  · rw [← dataList_eq hw hl] at hp
    exact ⟨mem_setMaskOf.trans (hbit hp), mem_clrMaskOf.trans (hbit hp)⟩
  · rw [setMaskOf, hperm.length_eq, length_pinsWithBit, dataList_length hw hl]
    simp
  · rw [setMaskOf, maskNumber_eq_sum, (hperm.map _).sum_eq]

end Sys2Proof.Machine

/-! A command in progress always has a step (20_memory.md R56): each sub-step forwards from the invariant, with the state
it leaves. -/

namespace Sys2Proof.Machine

section
variable {s : State} {p : PinId} (h : Inv s)
include h

/-- In the handshake the control pins are outputs. -/
theorem Inv.ctrlOutput_of_waitBusy {b : BusyStep} (hp : s.phase = .waitBusy b) (hc : p ∈ ctrlList s.handle) :
    s.modeOf p = .output :=
  have hconf := h.sequencer.configured_of_waitBusy hp
  modeOf_of_hasSettings (h.direction.ctrl hconf.1 hconf.2 p hc)

/-- In a write cycle all pins of the handle are outputs. -/
theorem Inv.ctrlOutput_of_writeCycle (hw : InWriteCycle s.phase) (hc : p ∈ ctrlList s.handle) : s.modeOf p = .output :=
  modeOf_of_hasSettings ((h.allOutputs_of_writeCycle hw).1 p hc)

theorem Inv.dataOutput_of_writeCycle (hw : InWriteCycle s.phase) (hd : p ∈ dataList s.handle) : s.modeOf p = .output :=
  modeOf_of_hasSettings ((h.allOutputs_of_writeCycle hw).2.1 p hd)

/-! ### The handshake -/

omit h in
theorem step_wb0 (hp : s.phase = .waitBusy .wb0) (hd : s.configWillFail = false) :
    step s = .next ((s.afterConfig (dataSet s.handle) .input .none .off).goto (.waitBusy .wb1)) :=
  (step_waitBusy hp).trans (busyRead_wb0 hd)

theorem Inv.step_wb1 (hp : s.phase = .waitBusy .wb1) :
    step s = .next ((s.afterWrite s.handle.rsPin false).goto (.waitBusy .wb2)) :=
  (step_waitBusy hp).trans (busyRead_wb1 (h.ctrlOutput_of_waitBusy hp (rsPin_mem _)))

theorem Inv.step_wb2 (hp : s.phase = .waitBusy .wb2) :
    step s = .next ((s.afterWrite s.handle.rwPin true).goto (.waitBusy .wb3)) :=
  (step_waitBusy hp).trans (busyRead_wb2 (h.ctrlOutput_of_waitBusy hp (rwPin_mem _)))

theorem Inv.step_wb3 (hp : s.phase = .waitBusy .wb3) :
    step s = .next ((clearPolls (s.afterWrite s.handle.enPin true)).goto (.waitBusy .wb4)) :=
  (step_waitBusy hp).trans (busyRead_wb3 (h.ctrlOutput_of_waitBusy hp (enPin_mem _)))

theorem Inv.step_wb4 (hp : s.phase = .waitBusy .wb4) (hb : bfPin s.handle = some p) :
    step s = .next (takeSample (s.nextLevel p) (s.afterRead p)) :=
  (step_waitBusy hp).trans (busyRead_wb4 hb (modeOf_bfPin h hp (by rw [hp]; trivial) hb))

theorem Inv.step_wb5 (hp : s.phase = .waitBusy .wb5) :
    step s = .next ((s.afterWrite s.handle.enPin false).goto (.waitBusy .wb6)) :=
  (step_waitBusy hp).trans (busyRead_wb5 (h.ctrlOutput_of_waitBusy hp (enPin_mem _)))

omit h in
theorem step_wb6 (hp : s.phase = .waitBusy .wb6) (hd : s.configWillFail = false) :
    step s = .next (afterHandshake (s.afterConfig (dataSet s.handle) .output .none .off)) :=
  (step_waitBusy hp).trans (busyRead_wb6 hd)

/-! ### The write cycle -/

theorem Inv.step_ap0 (hp : s.phase = .addressPhase .ap0) :
    step s = .next ((s.afterWrite s.handle.rsPin (rsLevel s.curI)).goto (.addressPhase .ap1)) :=
  have hw : InWriteCycle s.phase := by rw [hp]; trivial
  (step_writeCycle hw).trans (writeCycle_ap0 hp (h.ctrlOutput_of_writeCycle hw (rsPin_mem _)))

theorem Inv.step_ap1 (hp : s.phase = .addressPhase .ap1) :
    step s = .next ((s.afterWrite s.handle.rwPin false).goto .dataDrive) :=
  have hw : InWriteCycle s.phase := by rw [hp]; trivial
  (step_writeCycle hw).trans (writeCycle_ap1 hp (h.ctrlOutput_of_writeCycle hw (rwPin_mem _)))

theorem Inv.step_dd0 (hp : s.phase = .dataDrive) :
    step s = .next ((s.afterSetClear (setMaskOf s.handle s.curByte) (clrMaskOf s.handle s.curByte)).goto
      (.strobe .st0)) := by
  have hw : InWriteCycle s.phase := by rw [hp]; trivial
  obtain ⟨hset, hclr⟩ := h.sequencer.masks hw
  rw [step_writeCycle hw, ← hset, ← hclr]
  exact writeCycle_dd0 hp (fun p hS => h.dataOutput_of_writeCycle hw (setMaskOf_subset (hset ▸ hS)))
    fun p hC => h.dataOutput_of_writeCycle hw (clrMaskOf_subset (hclr ▸ hC))

theorem Inv.step_st0 (hp : s.phase = .strobe .st0) :
    step s = .next ((s.afterWrite s.handle.enPin true).goto (.strobe .st1)) :=
  have hw : InWriteCycle s.phase := by rw [hp]; trivial
  (step_writeCycle hw).trans (writeCycle_st0 hp (h.ctrlOutput_of_writeCycle hw (enPin_mem _)))

theorem Inv.step_st1 (hp : s.phase = .strobe .st1) :
    step s = .next (endByte (s.afterWrite s.handle.enPin false)) :=
  have hw : InWriteCycle s.phase := by rw [hp]; trivial
  (step_writeCycle hw).trans (writeCycle_st1 hp (h.ctrlOutput_of_writeCycle hw (enPin_mem _)))

end

/-- A configuration call ends, whatever the environment draws. -/
theorem pinConfig_ends {P : PinSet} {dir : Dir} {k : State → State} {s : State} :
    ∃ t, pinConfig P dir .none .off k s = .next t := ⟨_, rfl⟩

/-- Settles O40: by the sub-step the command stands at. -/
theorem aCommandInProgressAlwaysSteps : Obligations.ACommandInProgressAlwaysSteps := by
  intro s h hc
  cases hp : s.phase with
  | idle => exact ⟨_, step_between hp hc⟩
  | config c =>
    rw [step_config hp]
    cases c with
    | cf0 => exact ⟨_, rfl⟩
    | cf1 => exact pinConfig_ends
    | cf2 => exact pinConfig_ends
  | waitBusy b =>
    cases b with
    | wb0 => rw [step_waitBusy hp]; exact pinConfig_ends
    | wb1 => exact ⟨_, h.step_wb1 hp⟩
    | wb2 => exact ⟨_, h.step_wb2 hp⟩
    | wb3 => exact ⟨_, h.step_wb3 hp⟩
    | wb4 =>
      obtain ⟨hwf, hwidth⟩ := handle_of_waitBusy h.sequencer hp
      obtain ⟨p, hb, -⟩ := exists_bfPin hwf hwidth
      exact ⟨_, h.step_wb4 hp hb⟩
    | wb5 => exact ⟨_, h.step_wb5 hp⟩
    | wb6 => rw [step_waitBusy hp]; exact pinConfig_ends
  | addressPhase a =>
    cases a with
    | ap0 => exact ⟨_, h.step_ap0 hp⟩
    | ap1 => exact ⟨_, h.step_ap1 hp⟩
  | dataDrive => exact ⟨_, h.step_dd0 hp⟩
  | strobe a =>
    cases a with
    | st0 => exact ⟨_, h.step_st0 hp⟩
    | st1 => exact ⟨_, h.step_st1 hp⟩
  | fault => exact absurd ((sequencerOk_fault hp).1 h.sequencer).1 hc

end Sys2Proof.Machine

/-! A bus cycle run through (43_bus_cycles.md R171, R172): the handshake up to its last sub-step, the two ways it ends, and
the write cycle. -/

namespace Sys2Proof.Machine

/-! ### The sampling loop -/

section
variable {s : State} {p : PinId}

@[simp] theorem pollsAfterSample_afterRead : pollsAfterSample (s.afterRead p) = pollsAfterSample s := rfl

/-- A sample of 1 below the bound stays in the loop (41_wait_ready.md R124). -/
theorem takeSample_busy (hp : s.phase = .waitBusy .wb4) (hl : s.params.pollLimit ≠ some (pollsAfterSample s)) :
    takeSample true s = s.withSample true (pollsAfterSample s) false := by
  simp [takeSample, sampleTimesOut, hl, State.goto, State.withSample, hp]

/-- A 0, and the sample of 1 that reaches the bound, leave it, the latter as a timeout (R124, R130). -/
theorem takeSample_leaves {v : Level} (hv : v = true → s.params.pollLimit = some (pollsAfterSample s)) :
    takeSample v s = (s.withSample v (pollsAfterSample s) v).goto (.waitBusy .wb5) := by
  cases v with
  | false => rfl
  | true => simp [takeSample, sampleTimesOut, hv rfl]

theorem nextLevel_of_samples {v : Level} {more : List Level} (h : s.samples = v :: more) : s.nextLevel p = v := by
  simp [State.nextLevel, h]

theorem configWillFail_of_cons {v : Bool} {more : List Bool} (h : s.cfgFails = v :: more) : s.configWillFail = v := by
  simp [State.configWillFail, h]

end

/-! ### Runs inside a handshake -/

/-- The events of `WB0` to `WB3`. -/
def readModeEvents (h : Handle) : List Event :=
  [.cfg (dataSet h) .input, .w h.rsPin false, .w h.rwPin true, .w h.enPin true]

/-- The events of `WB0` to `WB5`: `k` samples of 1, then the sample `v`. -/
def samplingEvents (h : Handle) (p : PinId) (k : Nat) (v : Level) : List Event :=
  readModeEvents h ++ List.replicate k (Event.r p true) ++ [Event.r p v, Event.w h.enPin false]

/-- `k` steps inside a handshake from `s` to `t` with the events `es`: of the registers only those of the handshake change,
and the data pins keep their latches (41_wait_ready.md R128). -/
structure HandshakeRun (k : Nat) (s t : State) (es : List Event) : Prop where
  runs : run k s = .next t
  frame : t = { s with
    pins := t.pins, phase := t.phase, bf := t.bf, polls := t.polls, timedOut := t.timedOut, samples := t.samples,
    cfgFails := t.cfgFails, draws := t.draws, trace := t.trace }
  trace : t.trace = s.trace ++ es
  latches : ∀ p ∈ dataList s.handle, t.latchOf p = s.latchOf p

section
variable {s t u : State} {p : PinId} {j k : Nat} {es fs : List Event}

theorem HandshakeRun.handle (h : HandshakeRun k s t es) : t.handle = s.handle := by rw [h.frame]
theorem HandshakeRun.params (h : HandshakeRun k s t es) : t.params = s.params := by rw [h.frame]

theorem HandshakeRun.refl (s : State) : HandshakeRun 0 s s [] := ⟨rfl, rfl, by simp, fun _ _ => rfl⟩

theorem HandshakeRun.trans (h : HandshakeRun j s t es) (h' : HandshakeRun k t u fs) :
    HandshakeRun (j + k) s u (es ++ fs) where
  runs := (run_add h.runs).trans h'.runs
  frame := by rw [h'.frame, h.frame]
  trace := by rw [h'.trace, h.trace, List.append_assoc]
  latches p hp := (h'.latches p (h.handle ▸ hp)).trans (h.latches p hp)

theorem Inv.after_handshakeRun (hs : Inv s) (h : HandshakeRun k s t es) : Inv t := hs.after_run h.runs

/-- `WB0`. -/
theorem handshakeRun_wb0 (hp : s.phase = .waitBusy .wb0) (hd : s.configWillFail = false) :
    HandshakeRun 1 s ((s.afterConfig (dataSet s.handle) .input .none .off).goto (.waitBusy .wb1))
      [.cfg (dataSet s.handle) .input] :=
  ⟨run_one (step_wb0 hp hd), rfl, rfl, fun _ _ => afterConfig_latchOf⟩

/-- A sub-step that writes a control pin. -/
theorem HandshakeRun.of_write {c : PinId} {v : Level} {q : Phase} (hs : Inv s) {b : BusyStep} (hp : s.phase = .waitBusy b)
    (hc : c ∈ ctrlList s.handle) (h : step s = .next ((s.afterWrite c v).goto q)) :
    HandshakeRun 1 s ((s.afterWrite c v).goto q) [.w c v] :=
  ⟨run_one h, rfl, rfl, fun _ hd =>
    latchOf_afterWrite_of_ne ((hs.sequencer.commandOk_of_waitBusy hp).wired.data_ne_ctrl hc hd)⟩

/-- `WB3`. -/
theorem Inv.handshakeRun_wb3 (hs : Inv s) (hp : s.phase = .waitBusy .wb3) :
    HandshakeRun 1 s ((clearPolls (s.afterWrite s.handle.enPin true)).goto (.waitBusy .wb4))
      [.w s.handle.enPin true] where
  runs := run_one (hs.step_wb3 hp)
  frame := by rw [clearPolls_eq]; rfl
  trace := by simp
  latches p hd := by
    simpa using latchOf_afterWrite_of_ne (v := true)
      ((hs.sequencer.commandOk_of_waitBusy hp).wired.data_ne_ctrl (enPin_mem _) hd)

/-- The first four sub-steps: the data pins turned, the control lines in read mode, enable high (R121, R122). -/
theorem Inv.run_to_wb4 (h : Inv s) (hp : s.phase = .waitBusy .wb0) (hd : s.configWillFail = false) :
    ∃ t, HandshakeRun 4 s t (readModeEvents s.handle) ∧
      t.phase = .waitBusy .wb4 ∧ t.samples = s.samples ∧ t.sampleAfter = s.sampleAfter ∧ t.cfgFails = s.cfgFails.tail ∧
      ∀ n, s.params.pollLimit = some n → t.polls = 0 := by
  have h0 := handshakeRun_wb0 hp hd
  have i1 := h.after_handshakeRun h0
  have h1 := HandshakeRun.of_write i1 rfl (rsPin_mem _) (i1.step_wb1 rfl)
  have i2 := i1.after_handshakeRun h1
  have h2 := HandshakeRun.of_write i2 rfl (rwPin_mem _) (i2.step_wb2 rfl)
  have h3 := (i2.after_handshakeRun h2).handshakeRun_wb3 rfl
  exact ⟨_, by simpa [readModeEvents] using ((h0.trans h1).trans h2).trans h3, by simp, by simp, by simp, by simp, fun n hn => by simp [hn]⟩

/-- A sample that stays in the loop. -/
theorem Inv.handshakeRun_busy {more : List Level} (h : Inv s) (hp : s.phase = .waitBusy .wb4)
    (hb : bfPin s.handle = some p) (hsamples : s.samples = true :: more)
    (hl : s.params.pollLimit ≠ some (pollsAfterSample s)) :
    HandshakeRun 1 s ((s.afterRead p).withSample true (pollsAfterSample s) false) [.r p true] where
  runs := run_one <| by
    rw [h.step_wb4 hp hb, nextLevel_of_samples hsamples]
    exact congrArg _ (takeSample_busy (s := s.afterRead p) hp hl)
  frame := rfl
  trace := by simp [nextLevel_of_samples hsamples]
  latches _ _ := rfl

/-- `k` samples of 1 below the bound. -/
theorem Inv.run_samples {more : List Level} (h : Inv s) (hp : s.phase = .waitBusy .wb4)
    (hb : bfPin s.handle = some p) (hsamples : s.samples = List.replicate k true ++ more)
    (hlim : ∀ n, s.params.pollLimit = some n → s.polls + k < n) :
    ∃ t, HandshakeRun k s t (List.replicate k (.r p true)) ∧ t.phase = .waitBusy .wb4 ∧ t.samples = more ∧
      t.cfgFails = s.cfgFails ∧ ∀ n, s.params.pollLimit = some n → t.polls = s.polls + k := by
  induction k generalizing s with
  | zero => exact ⟨s, .refl s, hp, hsamples, rfl, fun _ _ => rfl⟩
  | succ k ih =>
    rw [List.replicate_succ, List.cons_append] at hsamples
    have hbelow : s.params.pollLimit ≠ some (pollsAfterSample s) := fun hl => by
      have := hlim _ hl
      rw [pollsAfterSample_of_limit hl] at this
      omega
    have hcount : ∀ n, s.params.pollLimit = some n → pollsAfterSample s + k = s.polls + (k + 1) := fun n hn => by
      rw [pollsAfterSample_of_limit hn]; omega
    have h1 := h.handshakeRun_busy hp hb hsamples hbelow
    obtain ⟨t, hrun, hpt, hst, hct, hpolls⟩ := ih (h.after_handshakeRun h1) hp hb (by simp [hsamples]) fun n hn =>
      (hcount n hn).trans_lt (hlim n hn)
    exact ⟨t, by simpa [Nat.add_comm 1 k, List.replicate_succ] using h1.trans hrun, hpt, hst, hct, fun n hn => (hpolls n hn).trans (hcount n hn)⟩

/-- The sample that leaves the loop, a 0 or the 1 that reaches `POLL_LIMIT`, and then enable low (R124, R130). -/
theorem Inv.run_leave {v : Level} {more : List Level} (h : Inv s) (hp : s.phase = .waitBusy .wb4)
    (hb : bfPin s.handle = some p) (hsamples : s.samples = v :: more)
    (hv : v = true → s.params.pollLimit = some (s.polls + 1)) :
    ∃ t, HandshakeRun 2 s t [.r p v, .w s.handle.enPin false] ∧ t.phase = .waitBusy .wb6 ∧ t.bf = v ∧ t.timedOut = v ∧
      t.samples = more ∧ t.cfgFails = s.cfgFails := by
  have hlimit : v = true → (s.afterRead p).params.pollLimit = some (pollsAfterSample (s.afterRead p)) := fun e => by
    rw [pollsAfterSample_afterRead, pollsAfterSample_of_limit (hv e), afterRead_params, hv e]
  have h1 : HandshakeRun 1 s (((s.afterRead p).withSample v (pollsAfterSample s) v).goto (.waitBusy .wb5)) [.r p v] :=
    ⟨run_one (by rw [h.step_wb4 hp hb, nextLevel_of_samples hsamples, takeSample_leaves hlimit,
      pollsAfterSample_afterRead]), rfl,
      by simp [nextLevel_of_samples hsamples], fun _ _ => rfl⟩
  have i1 := h.after_handshakeRun h1
  have h2 := HandshakeRun.of_write i1 rfl (enPin_mem _) (i1.step_wb5 rfl)
  exact ⟨_, by simpa using h1.trans h2, by simp, by simp, by simp, by simp [hsamples], by simp⟩

/-- A handshake up to its second configuration call: `k` samples of 1, then the one that leaves the loop. -/
theorem Inv.run_to_wb6 {v : Level} {more : List Level} (h : Inv s) (hp : s.phase = .waitBusy .wb0)
    (hb : bfPin s.handle = some p) (hd : s.configWillFail = false)
    (hsamples : s.samples = List.replicate k true ++ v :: more) (hlim : ∀ n, s.params.pollLimit = some n → k < n)
    (hv : v = true → s.params.pollLimit = some (k + 1)) :
    ∃ t, HandshakeRun (6 + k) s t (samplingEvents s.handle p k v) ∧
      t.phase = .waitBusy .wb6 ∧ t.bf = v ∧ t.timedOut = v ∧ t.samples = more ∧ t.cfgFails = s.cfgFails.tail := by
  obtain ⟨a, ha, hpa, hsa, -, hca, hpolls⟩ := h.run_to_wb4 hp hd
  have ia := h.after_handshakeRun ha
  obtain ⟨b, hb', hpb, hsb, hcb, hpollsb⟩ := ia.run_samples hpa (ha.handle ▸ hb) (hsa.trans hsamples) fun n hn => by
    rw [ha.params] at hn
    rw [hpolls n hn, Nat.zero_add]
    exact hlim n hn
  have hab := ha.trans hb'
  obtain ⟨t, ht, hpt, hbf, hto, hst, hct⟩ := (ia.after_handshakeRun hb').run_leave hpb (hab.handle ▸ hb) hsb fun e => by
    have hl := hv e
    rw [hab.params, hpollsb _ (ha.params ▸ hl), hpolls _ hl, hl, Nat.zero_add]
  rw [hab.handle] at ht
  rw [show 6 + k = 4 + k + 2 by omega]
  exact ⟨t, hab.trans ht, hpt, hbf, hto, hst, by rw [hct, hcb, hca]⟩

end

end Sys2Proof.Machine

/-! The ends of a handshake and the write cycle, run through (41_wait_ready.md R127, R130, 43_bus_cycles.md R171). -/

namespace Sys2Proof.Machine

section
variable {s t u : State} {p : PinId} {busy : Nat} {more : List Level} {mores : List Bool}

/-- The lines in read mode, enable low, every pin of the handle an output: what a handshake leaves (R127). -/
structure ReadModeLeft (t : State) : Prop where
  outputs : AllOutputs t
  rs : t.latchOf t.handle.rsPin = some false
  rw : t.latchOf t.handle.rwPin = some true
  en : t.latchOf t.handle.enPin = some false

/-- The second configuration call of the handshake, whatever the registers do then. -/
theorem Inv.readModeLeft_of_wb6 (h : Inv u) (hp : u.phase = .waitBusy .wb6) (hh : t.handle = u.handle)
    (hpins : t.pins = updatePins (configurePin (dataSet u.handle) .output .none .off) u.pins) : ReadModeLeft t where
  outputs := (h.dataInputs_of_waitBusy hp (by simp)).toOutputs (h.sequencer.commandOk_of_waitBusy hp).wired hh hpins
  rs := by rw [latchOf_configure hpins, hh]; exact h.lines.busyRs (by simp [hp])
  rw := by rw [latchOf_configure hpins, hh]; exact h.lines.busyRw (by simp [hp])
  en := by rw [latchOf_configure hpins, hh]; exact h.lines.enLow (by simp [hp])

theorem busyReadEvents_eq (h : Handle) (p : PinId) (busy : Nat) :
    busyReadEvents h p busy = samplingEvents h p busy false ++ [.cfg (dataSet h) .output] := by
  simp [busyReadEvents, samplingEvents, readModeEvents]

/-- A handshake from `s` to `t` that was answered after `busy` samples of 1, but for where it goes on. -/
structure HandshakeAnswered (p : PinId) (busy : Nat) (s t : State) : Prop where
  runs : run (handshakeSteps busy) s = .next t
  inv : Inv t
  trace : t.trace = s.trace ++ busyReadEvents s.handle p busy
  bf : t.bf = false
  pins : ReadModeLeft t
  latches : ∀ p ∈ dataList s.handle, t.latchOf p = s.latchOf p

section
variable (h : Inv s) (hp : s.phase = .waitBusy .wb0) (hb : bfPin s.handle = some p)
  (hcfg : s.cfgFails = false :: false :: mores) (hsamples : s.samples = List.replicate busy true ++ false :: more)
  (hlim : ∀ n, s.params.pollLimit = some n → busy < n)
include h hp hb hcfg hsamples hlim

/-- An answered handshake comes to its end with no timeout pending, and goes on by the command. -/
theorem Inv.run_answered : ∃ u, HandshakeRun (6 + busy) s u (samplingEvents s.handle p busy false) ∧ u.bf = false ∧
    u.timedOut = false ∧ u.samples = more ∧ u.cfgFails.tail = mores ∧
    HandshakeAnswered p busy s (afterHandshake (u.afterConfig (dataSet u.handle) .output .none .off)) := by
  obtain ⟨u, hu, hpu, hbf, hto, hsu, hcu⟩ := h.run_to_wb6 hp hb (configWillFail_of_cons hcfg) hsamples hlim (by simp)
  have hstep := step_wb6 hpu (configWillFail_of_cons (by rw [hcu, hcfg]; rfl))
  have hiu := h.after_handshakeRun hu
  obtain ⟨hpins, htrace, -, -, hbf', -, -⟩ :=
    afterHandshake_keeps (s := u.afterConfig (dataSet u.handle) .output .none .off)
  refine ⟨u, hu, hbf, hto, hsu, by rw [hcu, hcfg]; rfl, ?_, hiu.after_step hstep, ?_, hbf'.trans hbf,
    hiu.readModeLeft_of_wb6 hpu afterHandshake_handle hpins, fun q hq => ?_⟩
  · rw [handshakeSteps, show 7 + busy = 6 + busy + 1 by omega, run_add hu.runs, run_one hstep]
  · rw [htrace, afterConfig_trace, hu.trace, hu.handle, busyReadEvents_eq, List.append_assoc]
  · rw [latchOf_congr hpins, afterConfig_latchOf, hu.latches q hq]

/-- The handshake of a byte ends at the address phase, with the masks of the byte. -/
theorem Inv.run_handshake_byte (hc : s.cmd ≠ .waitReady) : ∃ t, HandshakeAnswered p busy s t ∧ t = { s with
    pins := t.pins, phase := .addressPhase .ap0, setMask := t.setMask, clrMask := t.clrMask, bf := false,
    polls := t.polls, timedOut := false, samples := more, cfgFails := mores, draws := t.draws, trace := t.trace } := by
  obtain ⟨u, hu, hbf, hto, hsu, hcu, ht⟩ := h.run_answered hp hb hcfg hsamples hlim
  have hcmd : s.cmd = .init ∨ s.cmd = .send := by
    have hrun := (h.sequencer.commandOk_of_waitBusy hp).running
    revert hrun hc
    cases s.cmd <;> simp
  have hcmdu : u.cmd = .init ∨ u.cmd = .send := by rwa [hu.frame]
  rw [afterHandshake_of_byte (by exact hto) (by exact hcmdu)] at ht
  refine ⟨_, ht, ?_⟩
  have hframe := hu.frame
  simp only [beginAddressPhase, State.afterConfig, State.emit, State.tookConfigDraw, hbf, hto, hsu, hcu]
  rw [hframe]

/-- The handshake of `WAIT_READY` ends the command (41_wait_ready.md R120). -/
theorem Inv.run_handshake_wait (hc : s.cmd = .waitReady) : ∃ t, HandshakeAnswered p busy s t ∧ t = { s with
    pins := t.pins, phase := .idle, cmd := .none, bf := false, polls := t.polls, timedOut := false, samples := more,
    cfgFails := mores, draws := t.draws, trace := t.trace } := by
  obtain ⟨u, hu, hbf, hto, hsu, hcu, ht⟩ := h.run_answered hp hb hcfg hsamples hlim
  have hcu' : u.cmd = .waitReady := by rwa [hu.frame]
  rw [afterHandshake_of_waitReady (by exact hto) (by exact hcu')] at ht
  refine ⟨_, ht, ?_⟩
  have hframe := hu.frame
  simp only [completeCommand, State.afterConfig, State.emit, State.tookConfigDraw, hbf, hto, hsu, hcu, hcu', initedAfter]
  rw [hframe]

/-- The handshake of any command, and where the block is then (10_state.md R20). -/
theorem Inv.run_handshake : ∃ t, HandshakeAnswered p busy s t ∧ t.handle = s.handle ∧ t.curByte = s.curByte ∧
    t.curI = s.curI ∧ t.queue = s.queue ∧ t.phase = (if s.cmd = .waitReady then .idle else .addressPhase .ap0) := by
  by_cases hc : s.cmd = .waitReady
  · obtain ⟨t, ht, hframe⟩ := h.run_handshake_wait hp hb hcfg hsamples hlim hc
    exact ⟨t, ht, by rw [hframe], by rw [hframe], by rw [hframe], by rw [hframe], by rw [hframe, if_pos hc]⟩
  · obtain ⟨t, ht, hframe⟩ := h.run_handshake_byte hp hb hcfg hsamples hlim hc
    exact ⟨t, ht, by rw [hframe], by rw [hframe], by rw [hframe], by rw [hframe], by rw [hframe, if_neg hc]⟩

end

/-! ### The write cycle -/

/-- The lines after a write cycle of the byte `b` with flag `f` (42_send.md R151). -/
structure ByteLeft (f : Bool) (b : Byte) (t : State) : Prop where
  rs : t.latchOf t.handle.rsPin = some (rsLevel f)
  rw : t.latchOf t.handle.rwPin = some false
  en : t.latchOf t.handle.enPin = some false
  data : DataLinesHold t b

/-- Enable falls on lines that hold the byte (R148). -/
theorem Inv.byteLeft_of_st1 (h : Inv u) (hp : u.phase = .strobe .st1) (hh : t.handle = u.handle)
    (hpins : t.pins = updatePins (latchPin u.handle.enPin false) u.pins) : ByteLeft u.curI u.curByte t := by
  have hcycle : InWriteCycle u.phase := by rw [hp]; trivial
  have hw := (h.sequencer.commandOk_of_writeCycle hcycle).wired
  have hkept : ∀ q, q ≠ u.handle.enPin → t.latchOf q = u.latchOf q := fun q hq =>
    (latchOf_latchPin hpins).trans (if_neg hq)
  have hen : t.latchOf u.handle.enPin = some false :=
    (latchOf_congr (s := u.afterWrite u.handle.enPin false) hpins).trans
      (latchOf_afterWrite_self (h.ctrlOutput_of_writeCycle hcycle (enPin_mem _)))
  constructor
  case rs => rw [hh, hkept _ hw.rs_ne_en]; exact h.lines.writeRs (by simp [hp])
  case rw => rw [hh, hkept _ hw.rw_ne_en]; exact h.lines.writeRw (by simp [hp])
  case en => rw [hh, hen]
  case data =>
    intro j q hj
    rw [hh] at hj
    rw [hkept _ (hw.data_ne_ctrl (enPin_mem _) (mem_dataList_of_index hj))]
    exact h.lines.data (by simp [hp]) j q hj

/-- `k` steps inside a write cycle from `s` to `t` with the events `es`, before its last sub-step. -/
structure WriteRun (k : Nat) (s t : State) (es : List Event) : Prop where
  runs : run k s = .next t
  frame : t = { s with pins := t.pins, phase := t.phase, trace := t.trace }
  trace : t.trace = s.trace ++ es

theorem WriteRun.trans {j k : Nat} {es fs : List Event} (h : WriteRun j s t es) (h' : WriteRun k t u fs) :
    WriteRun (j + k) s u (es ++ fs) where
  runs := (run_add h.runs).trans h'.runs
  frame := by rw [h'.frame, h.frame]
  trace := by rw [h'.trace, h.trace, List.append_assoc]

/-- A sub-step that writes a control pin. -/
theorem WriteRun.of_write {c : PinId} {v : Level} {q : Phase} (h : step s = .next ((s.afterWrite c v).goto q)) :
    WriteRun 1 s ((s.afterWrite c v).goto q) [.w c v] := ⟨run_one h, rfl, rfl⟩

/-- `DD0`. -/
theorem Inv.writeRun_dd0 (h : Inv s) (hp : s.phase = .dataDrive) :
    WriteRun 1 s ((s.afterSetClear (setMaskOf s.handle s.curByte) (clrMaskOf s.handle s.curByte)).goto (.strobe .st0))
      [.sc (setMaskOf s.handle s.curByte) (clrMaskOf s.handle s.curByte)] := ⟨run_one (h.step_dd0 hp), rfl, rfl⟩

/-- A write cycle up to its last sub-step. -/
theorem Inv.run_to_st1 (h : Inv s) (hp : s.phase = .addressPhase .ap0) : ∃ t, WriteRun 4 s t
    [.w s.handle.rsPin (rsLevel s.curI), .w s.handle.rwPin false, .sc (setMaskOf s.handle s.curByte)
      (clrMaskOf s.handle s.curByte), .w s.handle.enPin true] ∧ t.phase = .strobe .st1 := by
  have h0 := WriteRun.of_write (h.step_ap0 hp)
  have i1 := h.after_run h0.runs
  have h1 := WriteRun.of_write (i1.step_ap1 rfl)
  have i2 := i1.after_run h1.runs
  have h2 := i2.writeRun_dd0 rfl
  have h3 := WriteRun.of_write ((i2.after_run h2.runs).step_st0 rfl)
  exact ⟨_, by simpa using ((h0.trans h1).trans h2).trans h3, rfl⟩

/-- A write cycle, run through: its five events, and the byte is over. -/
theorem Inv.run_writeCycle (h : Inv s) (hp : s.phase = .addressPhase .ap0) : ∃ t, run 5 s = .next t ∧
    t = { s with
      pins := t.pins, phase := .idle, cmd := if s.queue = [] then .none else s.cmd,
      inited := if s.queue = [] then initedAfter s.cmd s.inited else s.inited,
      trace := s.trace ++ writeCycleEvents s.handle s.curI s.curByte } ∧ ByteLeft s.curI s.curByte t := by
  obtain ⟨u, hu, hpu⟩ := h.run_to_st1 hp
  have hiu := h.after_run hu.runs
  have hstep := hiu.step_st1 hpu
  have hleft := hiu.byteLeft_of_st1 hpu (endByte_handle (u.afterWrite u.handle.enPin false)) (endByte_pins _)
  have hh : u.handle = s.handle := by rw [hu.frame]
  have hI : u.curI = s.curI := by rw [hu.frame]
  have hbyte : u.curByte = s.curByte := by rw [hu.frame]
  have hq : u.queue = s.queue := by rw [hu.frame]
  have hc : u.cmd = s.cmd := by rw [hu.frame]
  have hinited : u.inited = s.inited := by rw [hu.frame]
  rw [hI, hbyte] at hleft
  refine ⟨_, (run_add hu.runs).trans (run_one hstep), ?_, hleft⟩
  have htrace : u.trace ++ [.w u.handle.enPin false] = s.trace ++ writeCycleEvents s.handle s.curI s.curByte := by
    simp [hu.trace, hh, writeCycleEvents]
  have hframe := hu.frame
  simp only [endByte_eq, State.afterWrite, State.emit, htrace, hq, hc, hinited]
  rw [hframe]

end
end Sys2Proof.Machine

/-! Whole commands (40_initialize.md R107, 41_wait_ready.md R127, R130, 42_send.md R151): a byte run through, any number of
bytes, and the commands from their acceptance on. -/

namespace Sys2Proof.Machine

section
variable {s t : State} {p : PinId} {more : List Level} {mores : List Bool}

/-! ### Bytes -/

/-- One byte, from its handshake on (42_send.md R141). -/
theorem Inv.run_byte {busy : Nat} (h : Inv s) (hp : s.phase = .waitBusy .wb0) (hc : s.cmd ≠ .waitReady)
    (hb : bfPin s.handle = some p) (hcfg : s.cfgFails = false :: false :: mores)
    (hsamples : s.samples = List.replicate busy true ++ false :: more)
    (hlim : ∀ n, s.params.pollLimit = some n → busy < n) :
    ∃ t, run (byteSteps busy) s = .next t ∧ t = { s with
      pins := t.pins, phase := .idle, cmd := if s.queue = [] then .none else s.cmd,
      inited := if s.queue = [] then initedAfter s.cmd s.inited else s.inited, setMask := t.setMask,
      clrMask := t.clrMask, bf := false, polls := t.polls, timedOut := false, samples := more, cfgFails := mores,
      draws := t.draws, trace := s.trace ++ byteEvents s.handle p s.curI s.curByte busy } ∧
      ByteLeft s.curI s.curByte t := by
  obtain ⟨u, hu, hframe⟩ := h.run_handshake_byte hp hb hcfg hsamples hlim hc
  obtain ⟨t, hrun, ht, hleft⟩ := hu.inv.run_writeCycle (by rw [hframe])
  have htrace : u.trace ++ writeCycleEvents u.handle u.curI u.curByte =
      s.trace ++ byteEvents s.handle p s.curI s.curByte busy := by
    rw [hu.trace, byteEvents, List.append_assoc, hframe]
  rw [htrace] at ht
  refine ⟨t, (run_add hu.runs).trans hrun, ?_, by rwa [hframe] at hleft⟩
  rw [ht, hframe]

/-- The environment answers the first handshake and then the others. -/
theorem responsiveSamples_cons (busy : Nat) (busys : List Nat) :
    responsiveSamples (busy :: busys) ++ more =
      List.replicate busy true ++ false :: (responsiveSamples busys ++ more) := by
  simp [responsiveSamples]

/-- Any number of bytes after the one whose handshake is due: each with its events, then the command is over. -/
theorem Inv.run_bytes {busy : Nat} {busys : List Nat} (h : Inv s) (hp : s.phase = .waitBusy .wb0)
    (hc : s.cmd ≠ .waitReady) (hb : bfPin s.handle = some p) (hlen : busys.length = s.queue.length)
    (hcfg : s.cfgFails = List.replicate (2 * (busys.length + 1)) false ++ mores)
    (hsamples : s.samples = responsiveSamples (busy :: busys) ++ more) (hlim : BelowPollLimit s (busy :: busys)) :
    ∃ t, run (bytesSteps (busy :: busys)) s = .next t ∧ t = { s with
      pins := t.pins, phase := .idle, cmd := .none, queue := [], curByte := t.curByte,
      inited := initedAfter s.cmd s.inited, setMask := t.setMask, clrMask := t.clrMask, bf := false, polls := t.polls,
      timedOut := false, samples := t.samples, cfgFails := t.cfgFails, draws := t.draws,
      trace := s.trace ++ bytesEvents s.handle p s.curI ((s.curByte :: s.queue).zip (busy :: busys)) } ∧
      ByteLeft s.curI (s.queue.getLastD s.curByte) t := by
  generalize hq : s.queue = queue at hlen ⊢
  induction queue generalizing s busy busys with
  | nil =>
    obtain rfl := List.eq_nil_of_length_eq_zero hlen
    obtain ⟨t, hrun, ht, hleft⟩ := h.run_byte hp hc hb hcfg ((responsiveSamples_cons busy []) ▸ hsamples)
      fun n hn => hlim n hn busy (by simp)
    refine ⟨t, hrun, ?_, hleft⟩
    rw [ht]
    simp [hq, bytesEvents]
  | cons b bs ih =>
    obtain ⟨busy', busys, rfl⟩ := List.exists_cons_of_length_eq_add_one hlen
    obtain ⟨u, hrun, hu, hleft⟩ := h.run_byte hp hc hb (mores := List.replicate (2 * (busys.length + 1)) false ++ mores)
      hcfg ((responsiveSamples_cons busy (busy' :: busys)) ▸ hsamples) fun n hn => hlim n hn busy (by simp)
    have hqu : u.queue = b :: bs := by rw [hu, hq]
    have hcu : u.cmd = s.cmd := by rw [hu]; simp [hq]
    have hiu : u.inited = s.inited := by rw [hu]; simp [hq]
    have hhu : u.handle = s.handle := by rw [hu]
    have hlu : u.params = s.params := by rw [hu]
    have hIu : u.curI = s.curI := by rw [hu]
    have hnext := step_next_byte (s := u) (by rw [hu]) (hcu ▸ (h.sequencer.commandOk_of_waitBusy hp).running) hqu
    have hfirst : run (byteSteps busy + 1) s = .next (loadByte b bs u) := (run_add hrun).trans (run_one hnext)
    obtain ⟨t, hrest, ht, hlast⟩ := ih (s := loadByte b bs u) (h.after_run hfirst) rfl (hcu ▸ hc) (hhu ▸ hb)
      (by rw [loadByte_cfgFails, hu]) (by rw [loadByte_samples, hu])
      (fun n hn k hk => hlim n (hlu ▸ hn) k (List.mem_cons_of_mem _ hk)) rfl (by simpa using hlen)
    have htrace : (loadByte b bs u).trace ++ bytesEvents u.handle p u.curI ((b :: bs).zip (busy' :: busys)) =
        s.trace ++ bytesEvents s.handle p s.curI ((s.curByte :: b :: bs).zip (busy :: busy' :: busys)) := by
      rw [loadByte_trace, hu]
      simp [bytesEvents]
    refine ⟨t, (run_add hfirst).trans hrest, ?_, by
      rw [List.getLastD_cons]; simpa only [loadByte_curI, loadByte_curByte, hIu] using hlast⟩
    rw [ht]
    simp only [loadByte_handle, loadByte_curByte, loadByte_curI, htrace]
    simp only [loadByte, hcu, hiu]
    rw [hu]

/-! ### Acceptance keeps the invariant -/

/-- A command that an accepting, initialised block takes into its first handshake (41_wait_ready.md R120, 42_send.md
R141). -/
theorem Inv.of_accepted (h : Inv s) (ha : Accepting s) (hi : s.inited = true) (hp : t.phase = .waitBusy .wb0)
    (hc : t.cmd = .waitReady ∧ t.queue = s.queue ∨ t.cmd = .send)
    (e : t = { s with
      phase := t.phase, cmd := t.cmd, queue := t.queue, curByte := t.curByte, curI := t.curI }) : Inv t := by
  obtain ⟨hok, hf, hps, hcs⟩ := ha
  obtain ⟨-, hq, hto, hwired⟩ := (sequencerOk_rest hps hcs).1 h.sequencer
  have hh : t.handle = s.handle := by rw [e]
  have hpins : t.pins = s.pins := by rw [e]
  have hit : t.inited = true := by rw [e]; exact hi
  have hw : Wired t := by
    rw [Wired, handleOk_congr hh (by rw [hpins]), hh]
    exact hwired hi
  have hcmd : CommandOk t := {
    running := by rcases hc with ⟨e, -⟩ | e <;> simp [e]
    noFault := by rw [e]; exact hf
    wired := hw
    queueWait := fun hwait => by
      rcases hc with ⟨-, e⟩ | e
      · rw [e, hq]
      · simp [e] at hwait
    needsInited := fun _ => hit
    bringUpFlag := fun hinit => by rcases hc with ⟨e, -⟩ | e <;> simp [e] at hinit }
  refine ⟨hcmd.sequencerOk_wb0 hp (by rw [e]; exact hto), ?_, ?_⟩
  · exact h.direction.of_settings (fun _ => settingsOf_congr hpins) hh (fun _ _ => ⟨.inl hi, by simp [hps]⟩)
      (by simp [hp, hps, DataPinsAreInputs]) (by simp [hp])
  · refine linesOk_of_quiet (by simp [hp]) fun _ _ => ?_
    rw [latchOf_congr hpins, hh]
    exact h.lines.enRest hi (by simp [hps])

/-- `INIT` accepted (40_initialize.md R100). -/
theorem Inv.startInit (h : Inv s) (ha : Accepting s) : Inv (startInit s) := by
  obtain ⟨hok, hf, hps, hcs⟩ := ha
  obtain ⟨-, -, hto, hwired⟩ := (sequencerOk_rest hps hcs).1 h.sequencer
  refine ⟨(sequencerOk_config (by rfl)).2 ⟨rfl, hf, hok, by simpa using fun hi => (hwired hi).2, hto⟩, ?_, ?_⟩
  · exact h.direction.of_settings (fun _ => rfl) rfl
      (fun _ hc => ⟨.inl (by simpa [Configured, InConfig] using hc), by simp [hps]⟩) (by simp [hps, DataPinsAreInputs])
      (by simp)
  · exact linesOk_of_quiet (by simp) fun _ hi => h.lines.enRest hi (by simp [hps])

end

/-! ### The statements about bus cycles and `WAIT_READY` -/

/-- What RESPONSIVE says of one handshake. -/
theorem responsive_one {s : State} {busy : Nat} (h : Responsive s [busy]) :
    (∃ more, s.samples = List.replicate busy true ++ false :: more) ∧ ∃ mores, s.cfgFails = false :: false :: mores := by
  obtain ⟨⟨more, hs⟩, mores, hc⟩ := h
  exact ⟨⟨more, by simpa [responsiveSamples] using hs⟩, mores, hc⟩

/-- Settles O42: both cycles run through. -/
theorem busCyclesAppearAsTheirEvents : Obligations.BusCyclesAppearAsTheirEvents := by
  refine ⟨fun s h hp => ?_, fun s busy bf h hp hb hlim hresp => ?_⟩
  · obtain ⟨t, hrun, ht, hleft⟩ := h.run_writeCycle hp
    have hh : t.handle = s.handle := by rw [ht]
    obtain ⟨hrs, hrw, hen, hdata⟩ := hleft
    rw [hh] at hrs hrw hen
    exact ⟨t, hrun, by rw [ht], by rw [ht], by rw [ht], by rw [ht], by rw [ht], by rw [ht], hrs, hrw, hen, hdata⟩
  · obtain ⟨⟨more, hsamples⟩, mores, hcfg⟩ := responsive_one hresp
    obtain ⟨t, ht, hh, hbyte, hI, hq, hpt⟩ := h.run_handshake hp hb hcfg hsamples fun n hn => hlim n hn busy (by simp)
    obtain ⟨⟨-, hout, -⟩, hrs, hrw, hen⟩ := ht.pins
    rw [hh] at hout hrs hrw hen
    exact ⟨t, ht.runs, ht.trace, ht.bf, hbyte, hI, hq, hrs, hrw, hen, fun p hd => ⟨hout p hd, ht.latches p hd⟩, hpt⟩

/-- Settles O43: acceptance, then the handshake. -/
theorem waitReadyCompletes : Obligations.WaitReadyCompletes := by
  intro s busy bf h ha hi hb hlim hresp
  obtain ⟨⟨more, hsamples⟩, mores, hcfg⟩ := responsive_one hresp
  have hstart : Inv (startWaitReady s) := h.of_accepted ha hi rfl (.inl ⟨rfl, rfl⟩) rfl
  obtain ⟨t, ht, hframe⟩ := hstart.run_handshake_wait rfl hb hcfg hsamples (fun n hn => hlim n hn busy (by simp)) rfl
  have hh : t.handle = s.handle := by rw [hframe]; rfl
  obtain ⟨⟨-, hout, -⟩, hrs, hrw, hen⟩ := ht.pins
  rw [hh] at hout hrs hrw hen
  have hq : s.queue = [] := ((sequencerOk_rest ha.2.2.1 ha.2.2.2).1 h.sequencer).2.1
  refine ⟨startWaitReady s, t, accept_of_accepting true ha hi, ht.runs, ht.trace, ?_, by rw [hframe]; exact hi, ht.bf, hrs,
    hrw, hen, fun p hd => ⟨hout p hd, ht.latches p hd⟩, by rw [hframe]; rfl, by rw [hframe]; rfl, by rw [hframe]; rfl,
    by rw [hframe]; rfl⟩
  exact ⟨by rw [hframe], by rw [hframe], by rw [hframe]; exact hq, by rw [hframe]; exact ha.2.1⟩

/-! ### The timeout -/

/-- Settles O47: the `n`-th sample of 1 leaves the loop, and the end of the handshake raises the timeout. -/
theorem pollLimitEndsTheHandshake : Obligations.PollLimitEndsTheHandshake := by
  intro s n bf h hp hl hn hb ⟨more, hsamples⟩ ⟨mores, hcfg⟩
  obtain ⟨k, rfl⟩ : ∃ k, n = k + 1 := ⟨n - 1, by omega⟩
  have hbelow : ∀ n, s.params.pollLimit = some n → k < n := fun n hn => by
    rw [hl, Option.some.injEq] at hn; omega
  obtain ⟨u, hu, hpu, -, hto, -, hcu⟩ := h.run_to_wb6 hp hb (configWillFail_of_cons hcfg)
    (by rw [hsamples, List.replicate_succ', List.append_assoc]; rfl) hbelow fun _ => hl
  have hiu := h.after_handshakeRun hu
  have hstep := step_wb6 hpu (configWillFail_of_cons (by rw [hcu, hcfg]; rfl))
  rw [afterHandshake_of_timeout (by exact hto)] at hstep
  have hleft := hiu.readModeLeft_of_wb6 hpu
    (t := raiseTimeoutError (u.afterConfig (dataSet u.handle) .output .none .off)) rfl rfl
  refine ⟨_, by rw [← Nat.add_assoc, run_add hu.runs, run_one hstep], ⟨rfl, rfl, rfl, ?_⟩, ?_, ?_, ?_, ?_,
    fun p hd => ⟨?_, ?_⟩⟩
  · exact (hiu.sequencer.commandOk_of_waitBusy hpu).noFault
  · rw [raiseTimeoutError_inited, afterConfig_inited, hu.frame]
  · rw [raiseTimeoutError_reports, afterConfig_reports, hu.frame]
  · rw [raiseTimeoutError_trace, afterConfig_trace, hu.trace, hu.handle, List.replicate_succ']
    simp [samplingEvents, readModeEvents]
  · rw [← hu.handle]; exact hleft.en
  · rw [← hu.handle] at hd; exact hleft.outputs.2.1 p hd
  · rw [raiseTimeoutError_latchOf, afterConfig_latchOf, hu.latches p hd]

/-! ### `SEND` and `INIT` -/

/-- One event for each sub-step of a byte, and one for each sample of 1. -/
theorem length_bytesEvents (h : Handle) (p : PinId) (f : Bool) (xs : List (Byte × Nat)) :
    (bytesEvents h p f xs).length = (xs.map fun x => 12 + x.2).sum := by
  induction xs with
  | nil => rfl
  | cons x xs ih =>
    simp [bytesEvents, byteEvents, busyReadEvents, writeCycleEvents, ih]
    omega

theorem length_bytesEvents_zip (h : Handle) (p : PinId) (f : Bool) {bytes : List Byte} {busys : List Nat}
    (hlen : busys.length = bytes.length) :
    (bytesEvents h p f (bytes.zip busys)).length = (busys.map (12 + ·)).sum := by
  have hmap : (bytes.zip busys).map (fun x => 12 + x.2) = ((bytes.zip busys).map Prod.snd).map (12 + ·) := by simp
  rw [length_bytesEvents, hmap, List.map_snd_zip (by omega)]

/-- After a completed `INIT` the block at rest has all pins of the handle outputs (R151). -/
theorem Inv.outputs_of_inited {s : State} (h : Inv s) (hi : s.inited = true) (hp : s.phase = .idle) :
    AllOutputs s :=
  h.direction.allOutputs (.inl hi) (by simp [hp]) (by simp [hp, DataPinsAreInputs])

/-- Settles O44: an empty command is over at its acceptance, and any other runs its bytes through. -/
theorem sendTransmitsEveryByte : Obligations.SendTransmitsEveryByte := by
  intro s f bytes busys bf h ha hi hb hlen hlim hresp
  obtain ⟨⟨more, hsamples⟩, mores, hcfg⟩ := hresp
  obtain ⟨hok, hf, hps, hcs⟩ := ha
  cases bytes with
  | nil =>
    obtain rfl := List.eq_nil_of_length_eq_zero hlen
    refine ⟨_, _, accept_of_ok hok hf hps hcs fun _ => hi, rfl, by simp [startSend_nil, bytesEvents],
      by simp [startSend_nil], ⟨rfl, rfl, rfl, hf⟩, hi, fun p hp => ?_, by simp⟩
    obtain ⟨hctrl, hdata, -⟩ := h.outputs_of_inited hi hps
    exact hp.elim (hctrl p) (hdata p)
  | cons b bs =>
    obtain ⟨busy, busys, rfl⟩ := List.exists_cons_of_length_eq_add_one hlen
    have hstart : Inv (startSend f (b :: bs) s) := h.of_accepted ⟨hok, hf, hps, hcs⟩ hi rfl (.inr rfl) rfl
    obtain ⟨t, hrun, ht, hleft⟩ := hstart.run_bytes rfl (by simp [startSend_cons]) hb
      (by simpa [startSend_cons] using hlen) hcfg hsamples hlim
    have htrace : t.trace = s.trace ++ bytesEvents s.handle bf f ((b :: bs).zip (busy :: busys)) := by rw [ht]; rfl
    have hh : t.handle = s.handle := by rw [ht]; rfl
    have hit : t.inited = true := by rw [ht]; exact hi
    obtain ⟨hctrl, hdata, -⟩ := (hstart.after_run hrun).outputs_of_inited hit (by rw [ht])
    rw [hh] at hctrl hdata
    refine ⟨_, t, accept_of_ok hok hf hps hcs fun _ => hi, hrun, htrace, ?_,
      ⟨by rw [ht], by rw [ht], by rw [ht], by rw [ht]; exact hf⟩, hit, fun p hp => hp.elim (hctrl p) (hdata p),
      fun c hc => ?_⟩
    · rw [htrace, List.length_append, length_bytesEvents_zip _ _ _ hlen]
    · obtain ⟨hrs, hrw, hen, hlines⟩ := hleft
      rw [hh] at hrs hrw hen
      have hlast : bs.getLastD b = c := by simpa [List.getLast?_cons] using hc
      exact ⟨by rw [ht], hrs, hrw, hen, hlast ▸ hlines⟩

/-- The configuration of `INIT`, and its first byte (40_initialize.md R100 to R105). -/
theorem run_configuration {s : State} {mores : List Bool} (hp : s.phase = .config .cf0) (hc : s.cmd = .init)
    (hl : legalWidth s.handle) (hcfg : s.cfgFails = false :: false :: mores) :
    ∃ t, run 4 s = .next t ∧ t = { s with
      pins := t.pins, phase := .waitBusy .wb0,
      queue := (bringUpBytes s.params s.handle.busWidth).tail, curByte := s.params.clearInstruction, curI := true,
      cfgFails := mores, draws := t.draws,
      trace := s.trace ++ [.cfg (dataSet s.handle) .output, .cfg (ctrlSet s.handle) .output] } := by
  have htail : ∀ {u : State}, u.cfgFails = s.cfgFails.tail → u.configWillFail = false := fun e =>
    configWillFail_of_cons (e.trans (by rw [hcfg]; rfl))
  have h0 := step_cf0 hp hl
  have h1 := step_cf1 (s := s.goto (.config .cf1)) rfl (configWillFail_of_cons hcfg)
  have h2 := step_cf2 (s := ((s.goto (.config .cf1)).afterConfig (dataSet s.handle) .output .none .off).goto (.config .cf2))
    rfl (htail rfl)
  refine ⟨_, (run_succ_of_step h0).trans ((run_succ_of_step h1).trans ((run_succ_of_step h2).trans
    (run_one (step_next_byte (b := s.params.clearInstruction) (bs := (bringUpBytes s.params s.handle.busWidth).tail)
      (by rfl) (by simp [hc]) (by rfl))))), ?_⟩
  simp [loadByte, queueBringUp, bringUpBytes, State.afterConfig, State.emit, State.tookConfigDraw, State.goto, hcfg]

/-- Settles O28: the configuration, then the four bring-up bytes. -/
theorem initBringsTheControllerUp : Obligations.InitBringsTheControllerUp := by
  intro s k₁ k₂ k₃ k₄ bf h ha hl hb hlim ⟨more, hsamples⟩ ⟨mores, hcfg⟩
  have hstart := h.startInit ha
  obtain ⟨u, hrunU, hu⟩ := run_configuration (s := startInit s) (mores := List.replicate 8 false ++ mores) rfl rfl hl hcfg
  have hlenU : [k₂, k₃, k₄].length = u.queue.length := by rw [hu]; rfl
  obtain ⟨t, hrun, ht, hleft⟩ := (hstart.after_run hrunU).run_bytes (busy := k₁) (busys := [k₂, k₃, k₄]) (p := bf)
    (more := more) (mores := mores) (by rw [hu]) (by rw [hu]; simp) (by rw [hu]; exact hb) hlenU (by rw [hu]; rfl)
    (by rw [hu]; exact hsamples) (by rw [hu]; exact hlim)
  have hh : t.handle = s.handle := by rw [ht, hu]; rfl
  have hit : t.inited = true := by rw [ht, hu]; rfl
  have htrace : t.trace = s.trace ++ [.cfg (dataSet s.handle) .output, .cfg (ctrlSet s.handle) .output] ++
      bytesEvents s.handle bf true ((bringUpBytes s.params s.handle.busWidth).zip [k₁, k₂, k₃, k₄]) := by
    rw [ht, hu]; rfl
  obtain ⟨hctrl, hdata, hother⟩ := ((hstart.after_run hrunU).after_run hrun).outputs_of_inited hit (by rw [ht])
  obtain ⟨hrs, hrw, hen, hlines⟩ := hleft
  rw [hh] at hctrl hdata hother hrs hrw hen
  refine ⟨_, t, exec_init_of_accepting ha, (run_add hrunU).trans hrun, htrace, ?_,
    fun p hp => hp.elim (hctrl p) (hdata p), hother, by rw [hrs, hu]; rfl, hrw, hen, by rw [hu] at hlines; exact hlines,
    ⟨by rw [ht], by rw [ht], by rw [ht], ?_⟩, hit⟩
  · rw [htrace, List.length_append, length_bytesEvents_zip _ _ _ rfl]
    simp
    omega
  · rw [ht, hu]
    exact ha.2.1

end Sys2Proof.Machine

/-! How a run stands (70_reset_and_hazards.md R222, R227, R234): it hangs exactly when it comes to sample 1 for ever, and
otherwise comes to one of its ends. -/

namespace Sys2Proof.Machine

section
variable {s t u : State} {p : PinId} {j k : Nat}

/-! ### Hanging, back and forth along a run -/

/-- A run that comes to one that hangs, hangs. -/
theorem RunHangs.of_later (h : RunHangs t) (hr : run k s = .next t) : RunHangs s := by
  induction k generalizing s with
  | zero => cases hr; exact h
  | succ k ih =>
    obtain ⟨u, hu, hr⟩ := run_succ_next hr
    have hangs := ih hr
    intro j
    cases j with
    | zero =>
      refine ⟨s, rfl, fun hwaits => hangs.not_awaits ?_⟩
      obtain rfl : s = u := by simpa [step_of_awaits hwaits] using hu
      exact hwaits
    | succ j => rw [run_succ_of_step hu]; exact hangs j

/-- A run that takes every number of steps at `WB4` hangs. -/
theorem SamplesForEver.runHangs (h : SamplesForEver s) : RunHangs s := by
  obtain ⟨p, -, h⟩ := h
  intro k
  obtain ⟨t, hrun, hp, -⟩ := h k
  exact ⟨t, hrun, fun hwaits => by simp [hwaits.1] at hp⟩

/-- Where a run that hangs takes a step that does not lessen the work, that step samples 1. -/
theorem RunHangs.step_samples (h : RunHangs s) (hwork : ∀ t, step s = .next t → ¬ t.work < s.work) :
    s.phase = .waitBusy .wb4 ∧ ∃ p, bfPin s.handle = some p ∧ s.nextLevel p = true ∧
      step s = .next ((s.afterRead p).withSample true (pollsAfterSample s) false) := by
  obtain ⟨t, ht, -⟩ := h.next
  rcases step_progress ht with ⟨hwaits, -⟩ | ⟨hp, p, hb, hv, rfl⟩ | hless
  · exact absurd hwaits h.not_awaits
  · exact ⟨hp, p, hb, hv, ht⟩
  · exact absurd hless (hwork t ht)

/-- `t` is `s` after `j` samples of 1 from `p`: only the registers of the sample and the trace differ. -/
def SampledOnes (p : PinId) (j : Nat) (s t : State) : Prop := t = { s with
  bf := t.bf, polls := t.polls, timedOut := t.timedOut, samples := t.samples, draws := t.draws,
  trace := s.trace ++ List.replicate j (.r p true) }

theorem SampledOnes.work (h : SampledOnes p j s t) : t.work = s.work := by rw [h]; rfl

theorem SampledOnes.succ (h : SampledOnes p j s t) (hv : t.nextLevel p = true) :
    SampledOnes p (j + 1) s ((t.afterRead p).withSample true (pollsAfterSample t) false) := by
  have htrace : t.trace ++ [Event.r p true] = s.trace ++ List.replicate (j + 1) (Event.r p true) := by
    rw [h, List.replicate_succ', List.append_assoc]
  rw [SampledOnes]
  simp only [State.afterRead, State.withSample, State.emit, State.tookLevelDraw, hv, htrace]
  rw [h]

/-- A run that hangs without ever lessening the work samples 1 for ever. -/
theorem RunHangs.samplesForEver_of_noProgress (h : RunHangs s)
    (hwork : ∀ k t, run k s = .next t → ¬ t.work < s.work) : SamplesForEver s := by
  obtain ⟨hp, p, hb, -⟩ := h.step_samples fun t ht => hwork 1 t (run_one ht)
  have hsampled : ∀ j, ∃ t, run j s = .next t ∧ SampledOnes p j s t := fun j => by
    induction j with
    | zero => exact ⟨s, rfl, by simp [SampledOnes]⟩
    | succ j ih =>
      obtain ⟨t, hrun, ht⟩ := ih
      obtain ⟨-, q, hq, hv, hstep⟩ := (h.of_run hrun).step_samples fun u hu => by
        rw [ht.work]
        exact hwork (j + 1) u ((run_add hrun).trans (run_one hu))
      rw [ht] at hq
      obtain rfl : p = q := Option.some.inj (hb.symm.trans hq)
      exact ⟨_, (run_add hrun).trans (run_one hstep), ht.succ hv⟩
  refine ⟨p, hb, fun j => ?_⟩
  obtain ⟨t, hrun, ht⟩ := hsampled j
  exact ⟨t, hrun, by rw [ht]; exact hp, by rw [ht], by rw [ht], by rw [ht], by rw [ht], by rw [ht]⟩

/-- A run that hangs comes to sample 1 for ever: the work cannot lessen without end (R222). -/
theorem RunHangs.comes_to_sampling (h : RunHangs s) : ∃ k t, run k s = .next t ∧ SamplesForEver t := by
  induction hn : s.work using Nat.strong_induction_on generalizing s with
  | _ n ih =>
    subst hn
    by_cases hless : ∃ k t, run k s = .next t ∧ t.work < s.work
    · obtain ⟨k, t, hrun, hlt⟩ := hless
      obtain ⟨j, u, hrun', hu⟩ := ih _ hlt (h.of_run hrun) rfl
      exact ⟨k + j, u, (run_add hrun).trans hrun', hu⟩
    · exact ⟨0, s, rfl, h.samplesForEver_of_noProgress fun k t hrun hlt => hless ⟨k, t, hrun, hlt⟩⟩

/-! ### Sampling for ever -/

/-- A step from `WB4` to `WB4` is a sample of 1 (41_wait_ready.md R124). -/
theorem sample_of_step_wb4 (h : step s = .next t) (hp : s.phase = .waitBusy .wb4) (ht : t.phase = .waitBusy .wb4) :
    ∃ p, bfPin s.handle = some p ∧ s.nextLevel p = true ∧
      t = (s.afterRead p).withSample true (pollsAfterSample s) false := by
  cases step_moves h with
  | wb4Busy p _ hb _ hv => exact ⟨p, hb, hv, rfl⟩
  | wb4Ready => simp at ht
  | wb4TimesOut => simp at ht
  | dataFailed => simp at ht
  | wb3 hp' => simp [hp] at hp'
  | _ => simp_all

theorem SamplesForEver.phase (h : SamplesForEver s) : s.phase = .waitBusy .wb4 := by
  obtain ⟨p, -, h⟩ := h
  obtain ⟨t, hrun, hp, -⟩ := h 0
  cases hrun
  exact hp

/-- A block that samples 1 for ever takes one more sample of 1, and goes on so. -/
theorem SamplesForEver.next (h : SamplesForEver s) (hb : bfPin s.handle = some p) : s.nextLevel p = true ∧
    step s = .next ((s.afterRead p).withSample true (pollsAfterSample s) false) ∧
    SamplesForEver ((s.afterRead p).withSample true (pollsAfterSample s) false) := by
  have hp := h.phase
  obtain ⟨q, hq, h⟩ := h
  obtain rfl : p = q := Option.some.inj (hb.symm.trans hq)
  obtain ⟨t, hrun, hpt, -⟩ := h 1
  obtain ⟨u, hstep, hrun⟩ := run_succ_next hrun
  cases hrun
  obtain ⟨q, hq, hv, rfl⟩ := sample_of_step_wb4 hstep hp hpt
  obtain rfl : p = q := Option.some.inj (hb.symm.trans hq)
  refine ⟨hv, hstep, p, hb, fun j => ?_⟩
  obtain ⟨t, hrun, hpt, htrace, hrest⟩ := h (j + 1)
  rw [run_succ_of_step hstep] at hrun
  exact ⟨t, hrun, hpt, by simpa [hv, List.replicate_succ] using htrace, hrest⟩

/-- Then every answer to come is 1. -/
theorem SamplesForEver.sampleAt (h : SamplesForEver s) (hb : bfPin s.handle = some p) : s.sampleAt j p = true := by
  induction j generalizing s with
  | zero => exact sampleAt_zero.trans (h.next hb).1
  | succ j ih =>
    exact (sampleAt_afterRead j).symm.trans
      (ih (s := (s.afterRead p).withSample true (pollsAfterSample s) false) (h.next hb).2.2 hb)

/-- With no bound and every answer 1, the block does (41_wait_ready.md R125). -/
theorem Inv.samplesForEver (h : Inv s) (hp : s.phase = .waitBusy .wb4) (hl : s.params.pollLimit = none)
    (hb : bfPin s.handle = some p) (hv : ∀ j, s.sampleAt j p = true) : SamplesForEver s := by
  refine ⟨p, hb, fun j => ?_⟩
  obtain ⟨t, hrun, ht⟩ := run_wb4_busy (k := j) hp hl hb (modeOf_bfPin h hp (by rw [hp]; trivial) hb) fun i _ => hv i
  exact ⟨t, hrun, by rw [ht]; exact hp, by rw [ht], by rw [ht], by rw [ht], by rw [ht], by rw [ht]⟩

/-- With a bound it does not: each sample is counted, and the count stays below the bound (R130). -/
theorem not_samplesForEver {n : Nat} (hl : s.params.pollLimit = some n) (hn : 1 ≤ n) (hs : SequencerOk s) :
    ¬ SamplesForEver s := by
  induction hm : n - s.polls generalizing s with
  | zero =>
    intro h
    have := hs.pollsBound n hl hn h.phase
    omega
  | succ m ih =>
    intro h
    obtain ⟨p, hb, -⟩ := id h
    obtain ⟨-, hstep, hnext⟩ := h.next hb
    refine ih (by exact hl) ((step_moves hstep).sequencerOk hs) ?_ hnext
    rw [withSample_polls, pollsAfterSample_of_limit hl]
    omega

end

/-- Settles O51: by the progress measure one way, along the run the other. -/
theorem aRunHangsExactlyWhenItSamplesForEver : Obligations.ARunHangsExactlyWhenItSamplesForEver :=
  fun _ => ⟨fun h => h.comes_to_sampling, fun ⟨_, _, hrun, ht⟩ => ht.runHangs.of_later hrun⟩

/-- Settles O52: each turn of the loop takes the next answer. -/
theorem samplingGoesOnWhileEverySampleIsOne : Obligations.SamplingGoesOnWhileEverySampleIsOne :=
  fun _ _ h hp hl hb => ⟨fun hs _ => hs.sampleAt hb, fun hv => h.samplesForEver hp hl hb hv⟩

/-- Settles O54: a run that hangs would come to sample for ever, with the registers in order. -/
theorem withAPollLimitNoRunHangs : Obligations.WithAPollLimitNoRunHangs := by
  intro s n hl hn hs h
  obtain ⟨k, t, hrun, ht⟩ := h.comes_to_sampling
  obtain ⟨hst, hlt⟩ : SequencerOk t ∧ t.params.pollLimit = some n :=
    run_keeps (P := fun s => SequencerOk s ∧ s.params.pollLimit = some n) (fun a b hab hstep =>
      ⟨(step_moves hstep).sequencerOk hab.1, (step_moves hstep).constants.2.1 ▸ hab.2⟩) ⟨hs, hl⟩ hrun
  exact not_samplesForEver hlt hn hst ht

/-! ### The ends of a run -/

section
variable {s t : State} {k : Nat}

/-- A run that does not answer a next state came to a state whose step does not, with the same outcome. -/
theorem exists_last_step {r : Result} (hr : ∀ t, r ≠ .next t) (h : run k s = r) :
    ∃ j u, run j s = .next u ∧ step u = r := by
  induction k generalizing s with
  | zero => exact absurd h.symm (hr s)
  | succ k ih =>
    cases hs : step s with
    | next u =>
      rw [run_succ_of_step hs] at h
      obtain ⟨j, v, hrun, hv⟩ := ih h
      exact ⟨j + 1, v, (run_succ_of_step hs).trans hrun, hv⟩
    | fault why => rw [run_succ, hs] at h; exact ⟨0, s, rfl, hs.trans h⟩
    | refused why => rw [run_succ, hs] at h; exact ⟨0, s, rfl, hs.trans h⟩

/-- The grounds on which a command is not admitted are those of 60_exceptions.md R204. -/
theorem mem_admissionRefusals {needs : Bool} {f : State → State} {why : Refusal}
    (h : accept needs f s = .refused why) : why ∈ admissionRefusals := by
  unfold accept refusalOf at h
  split at h
  next why' hwhy =>
    obtain rfl : why' = why := by simpa using h
    repeat' split at hwhy
    all_goals simp_all [admissionRefusals]
  next => cases h

/-- The port holds commands only: no bus cycle has an encoding there (30_encoding.md R71, R75). -/
theorem command_of_decodePort {ws rest : List PortWord} {i : Instr} (h : decodePort ws = .instr i rest) :
    ∃ f bytes b, i ∈ [Instr.init, .waitReady, .send f bytes, .sendSingle f b, .clear] := by
  obtain ⟨-, front, he, -⟩ := encode_of_decodePort h
  cases i with
  | init => exact ⟨false, [], 0, by simp⟩
  | waitReady => exact ⟨false, [], 0, by simp⟩
  | send f bytes => exact ⟨f, bytes, 0, by simp⟩
  | sendSingle f b => exact ⟨f, [], b, by simp⟩
  | clear => exact ⟨false, [], 0, by simp⟩
  | irWrite => cases he
  | drWrite => cases he
  | busyRead => cases he

/-- In the invariant a step is refused at rest only: a command on a ground of R204, or a reserved header; in the fault
state the block has no step. -/
theorem Inv.step_refused {why : Refusal} (h : Inv s) (hs : step s = .refused why) :
    s.phase = .fault ∨ why ∈ admissionRefusals ∨ ∃ w, why = .reservedEncoding w := by
  by_cases hc : s.cmd = .none
  case neg =>
    obtain ⟨t, ht⟩ := aCommandInProgressAlwaysSteps s h hc
    simp [ht] at hs
  rcases (by simpa [hc, phaseFits] using h.sequencer.cmdPhase : s.phase = .idle ∨ s.phase = .fault) with hp | hp
  case inr => exact .inl hp
  rw [step_idle hp hc] at hs
  cases hd : decodePort s.port with
  | instr i rest =>
    rw [hd] at hs
    obtain ⟨f, bytes, b, hi⟩ := command_of_decodePort hd
    obtain ⟨k, hk⟩ := exec_command (s := s.withPort rest) hi
    exact .inr (.inl (mem_admissionRefusals (hk.symm.trans hs)))
  | incomplete => rw [hd] at hs; cases hs
  | rejected w => rw [hd] at hs; cases hs; exact .inr (.inr ⟨w, rfl⟩)

/-- An instruction never stops the machine. -/
theorem accept_ne_fault {needs : Bool} {f : State → State} {r : Fault} : accept needs f s ≠ .fault r := by
  unfold accept; split <;> simp

/-- In the invariant a step stops the machine in the fault state only. -/
theorem Inv.step_stops {r : Fault} (h : Inv s) (hs : step s = .fault r) : s.phase = .fault := by
  by_cases hc : s.cmd = .none
  case neg =>
    obtain ⟨t, ht⟩ := aCommandInProgressAlwaysSteps s h hc
    simp [ht] at hs
  rcases (by simpa [hc, phaseFits] using h.sequencer.cmdPhase : s.phase = .idle ∨ s.phase = .fault) with hp | hp
  case inr => exact hp
  rw [step_idle hp hc] at hs
  cases hd : decodePort s.port with
  | instr i rest =>
    rw [hd] at hs
    obtain ⟨f, bytes, b, hi⟩ := command_of_decodePort hd
    obtain ⟨k, hk⟩ := exec_command (s := s.withPort rest) hi
    exact absurd (hk.symm.trans hs) accept_ne_fault
  | incomplete => rw [hd] at hs; cases hs
  | rejected w => rw [hd] at hs; cases hs

/-- A block of the invariant that waits for a command has ended well. -/
theorem Inv.endedWell_of_awaits (h : Inv s) (ha : AwaitsCommand s) : EndedWell s := by
  obtain ⟨hp, hc, -⟩ := ha
  obtain ⟨hf, hq, -⟩ := (sequencerOk_rest hp hc).1 h.sequencer
  exact ⟨hp, hc, hq, hf⟩

end

/-- Settles O50: a run that does not hang comes to a waiting block or to a state with no next one. -/
theorem aRunEndsWellFaultsHangsOrIsRefused : Obligations.ARunEndsWellFaultsHangsOrIsRefused := by
  intro s
  refine ⟨fun h => ?_, ?_⟩
  · by_cases hangs : RunHangs s
    · exact .inr (.inr (.inl hangs))
    obtain ⟨k, hk⟩ : ∃ k, ∀ t, run k s = .next t → AwaitsCommand t := by simpa [RunHangs] using hangs
    cases hr : run k s with
    | next t => exact .inl ⟨k, t, hr, hk t hr, (h.after_run hr).endedWell_of_awaits (hk t hr)⟩
    | fault r =>
      obtain ⟨j, u, hrun, hu⟩ := exists_last_step (by simp) hr
      exact .inr (.inl ⟨j, u, hrun, (h.after_run hrun).step_stops hu⟩)
    | refused why =>
      obtain ⟨j, u, hrun, hu⟩ := exists_last_step (by simp) hr
      rcases (h.after_run hrun).step_refused hu with hp | hwhy | ⟨w, rfl⟩
      · exact .inr (.inl ⟨j, u, hrun, hp⟩)
      · exact .inr (.inr (.inr (.inl ⟨k, why, hr, hwhy⟩)))
      · exact .inr (.inr (.inr (.inr ⟨k, w, hr⟩)))
  · rintro (⟨k, t, hrun, hwaits, -⟩ | ⟨k, t, hrun, hp⟩ | ⟨k, why, hrun⟩) hangs
    · exact (hangs.of_run hrun).not_awaits hwaits
    · obtain ⟨u, hu, -⟩ := (hangs.of_run hrun).next
      exact step_fault_ne_next hp hu
    · obtain ⟨t, ht, -⟩ := hangs k
      simp [ht] at hrun

/-! ### A controller that is stuck busy -/

section
variable {s : State} {p : PinId}

/-- A handshake that only 1s answer comes to sample 1 for ever (41_wait_ready.md R125). -/
theorem Inv.runHangs_of_stuck (h : Inv s) (hp : s.phase = .waitBusy .wb0) (hd : s.configWillFail = false)
    (hl : s.params.pollLimit = none) (hsamples : s.samples = []) (hafter : s.sampleAfter = some true) :
    RunHangs s := by
  obtain ⟨hwf, hwidth⟩ := handle_of_waitBusy h.sequencer hp
  obtain ⟨p, hb, -⟩ := exists_bfPin hwf hwidth
  obtain ⟨t, ht, hpt, hst, hat, -⟩ := h.run_to_wb4 hp hd
  have hv : ∀ j, t.sampleAt j p = true := fun j => by simp [State.sampleAt, hst, hat, hsamples, hafter]
  exact ((h.after_handshakeRun ht).samplesForEver hpt (ht.params ▸ hl) (ht.handle ▸ hb) hv).runHangs.of_later ht.runs

end

/-- Settles O53: acceptance leads into a handshake, for `INIT` through its configuration. -/
theorem aStuckControllerHangsEveryCommand : Obligations.AStuckControllerHangsEveryCommand := by
  intro s i h ha hw hl hsamples hafter ⟨more, hcfg⟩ hi
  rcases hi with rfl | ⟨hin, hi⟩
  · have hstart := h.startInit ha
    obtain ⟨u, hrun, hu⟩ := run_configuration (s := startInit s) (mores := false :: more) rfl rfl hw hcfg
    refine ⟨_, exec_init_of_accepting ha, RunHangs.of_later ?_ hrun⟩
    exact (hstart.after_run hrun).runHangs_of_stuck (by rw [hu])
      (configWillFail_of_cons (more := more) (by rw [hu])) (by rw [hu]; exact hl) (by rw [hu]; exact hsamples) (by rw [hu]; exact hafter)
  · have hd : s.configWillFail = false := configWillFail_of_cons hcfg
    have hsend : ∀ f b bs, RunHangs (startSend f (b :: bs) s) := fun f b bs =>
      (h.of_accepted (t := startSend f (b :: bs) s) ha hin rfl (.inr rfl) rfl).runHangs_of_stuck rfl hd hl hsamples hafter
    rcases hi with rfl | ⟨f, b, bs, rfl⟩ | ⟨f, b, rfl⟩ | rfl
    · exact ⟨_, accept_of_accepting true ha hin,
        (h.of_accepted (t := startWaitReady s) ha hin rfl (.inl ⟨rfl, rfl⟩) rfl).runHangs_of_stuck rfl hd hl hsamples hafter⟩
    · exact ⟨_, accept_of_accepting true ha hin, hsend f b bs⟩
    · exact ⟨_, accept_of_accepting true ha hin, hsend f b []⟩
    · exact ⟨_, accept_of_accepting true ha hin, hsend true _ []⟩

end Sys2Proof.Machine

/-! What the display controller receives (43_bus_cycles.md R175): the entries of `WRITES` that the events of a handshake and
of a write cycle add. -/

namespace Sys2Proof.Machine

/-- The events of two stretches one after the other. -/
theorem writesOf_append (h : Handle) (lat : PinId → Level) (es fs : List Event) :
    writesOf h lat (es ++ fs) = writesOf h lat es ++ writesOf h (latchesAfterAll lat es) fs := by
  induction es generalizing lat with
  | nil => rfl
  | cons e es ih => simp [writesOf, ih, latchesAfterAll]

/-- Reads of the busy pin move no latch. -/
theorem writesOf_reads (h : Handle) (lat : PinId → Level) (p : PinId) (v : Level) (k : Nat) (es : List Event) :
    writesOf h lat (List.replicate k (Event.r p v) ++ es) = writesOf h lat es := by
  induction k with
  | zero => rfl
  | succ k ih => simpa [List.replicate_succ, writesOf, writesAt, latchesAfter] using ih

/-- Data lines that hold the bits of a byte make its low bits (20_memory.md R47). -/
theorem lineByte_eq_lowBits {h : Handle} {lat : PinId → Level} {b : Byte} (hlen : (dataList h).length = h.busWidth)
    (hbits : ∀ (j : Nat) p, (dataList h)[j]? = some p → lat p = b.getLsbD j) : lineByte h lat = lowBits h b := by
  apply BitVec.eq_of_getLsbD_eq
  intro j hj
  by_cases hw : j < h.busWidth
  · have hp : (dataList h)[j]? = some (dataList h)[j] := List.getElem?_eq_getElem (by omega)
    simp [lineByte, lowBits, hj, hw, hp, hbits j _ hp]
  · have hp : (dataList h)[j]? = none := List.getElem?_eq_none (by omega)
    simp [lineByte, lowBits, hj, hw, hp]

section
variable {h : Handle} {n : Nat} (hwf : handleWellFormed h n)
include hwf

/-- A handshake adds no entry: enable falls with read/write high (R172). -/
theorem writesOf_busyReadEvents (lat : PinId → Level) (bf : PinId) (busy : Nat) :
    writesOf h lat (busyReadEvents h bf busy) = [] := by
  have hrs := rs_ne_en hwf
  have hrw := rw_ne_en hwf
  have hread : ∀ lat' : PinId → Level, lat' h.rwPin = true →
      writesOf h lat' (List.replicate busy (Event.r bf true) ++
        [Event.r bf false, Event.w h.enPin false, Event.cfg (dataSet h) .output]) = [] :=
    fun lat' hlat => by simp [writesOf_reads, writesOf, writesAt, latchesAfter, hlat]
  rw [busyReadEvents, List.append_assoc, writesOf_append, hread _ (by simp [latchesAfterAll, latchesAfter, hrw])]
  simp [writesOf, writesAt, hrs, hrw]

/-- The address phase adds no entry and leaves register-select at `NOT I` and read/write low (42_send.md R145). -/
theorem writesOf_address (lat : PinId → Level) (f : Bool) :
    ∃ lat' : PinId → Level, lat' h.rsPin = rsLevel f ∧ lat' h.rwPin = false ∧
      ∀ es, writesOf h lat (Event.w h.rsPin (rsLevel f) :: Event.w h.rwPin false :: es) = writesOf h lat' es :=
  ⟨latchesAfterAll lat [Event.w h.rsPin (rsLevel f), Event.w h.rwPin false],
    by simp [latchesAfterAll, latchesAfter, rs_ne_rw hwf], by simp [latchesAfterAll, latchesAfter],
    fun es => by simp [writesOf, writesAt, latchesAfterAll, rs_ne_en hwf, rw_ne_en hwf]⟩

variable (hl : legalWidth h)
include hl

/-- The masks of a byte put each data line at its bit (42_send.md R147). -/
theorem latchesAfter_masks_data (lat : PinId → Level) (b : Byte) {j : Nat} {p : PinId} (hj : (dataList h)[j]? = some p) :
    latchesAfter lat (Event.sc (setMaskOf h b) (clrMaskOf h b)) p = b.getLsbD j := by
  cases hb : b.getLsbD j with
  | true => simp [latchesAfter, mem_setMaskOf.2 ⟨j, hj, hb⟩]
  | false =>
    have hnot : p ∉ setMaskOf h b := fun hset => by
      obtain ⟨i, hi, hbit⟩ := mem_setMaskOf.1 hset
      rw [data_index_unique hwf hl hi hj, hb] at hbit
      cases hbit
    simp [latchesAfter, hnot, mem_clrMaskOf.2 ⟨j, hj, hb⟩]

theorem latchesAfter_masks_ctrl (lat : PinId → Level) (b : Byte) {p : PinId} (hc : p ∈ ctrlList h) :
    latchesAfter lat (Event.sc (setMaskOf h b) (clrMaskOf h b)) p = lat p := by
  have hd := ctrl_not_data hwf hl hc
  simp [latchesAfter, show p ∉ setMaskOf h b from fun hp => hd (setMaskOf_subset hp),
    show p ∉ clrMaskOf h b from fun hp => hd (clrMaskOf_subset hp)]

/-- A strobe with read/write low adds the byte that the data lines hold (R173). -/
theorem writesOf_strobe {lat : PinId → Level} {b : Byte} (hrw : lat h.rwPin = false)
    (hbits : ∀ (j : Nat) p, (dataList h)[j]? = some p → lat p = b.getLsbD j) :
    writesOf h lat [Event.w h.enPin true, Event.w h.enPin false] = [(lat h.rsPin, lowBits h b)] := by
  have hline : lineByte h (latchesAfter lat (Event.w h.enPin true)) = lowBits h b :=
    lineByte_eq_lowBits (dataList_length hwf hl) fun j p hj => by
      have hne : p ≠ h.enPin := fun e =>
        ctrl_not_data hwf hl (p := p) (by simp [ctrlList, e]) (mem_dataList_iff_index.2 ⟨j, hj⟩)
      simpa [latchesAfter, hne] using hbits j p hj
  have hrise : writesAt h lat (Event.w h.enPin true) = [] := by simp [writesAt]
  have hfall : writesAt h (latchesAfter lat (Event.w h.enPin true)) (Event.w h.enPin false) = [(lat h.rsPin, lowBits h b)] := by
    rw [writesAt, hline]
    simp [latchesAfter, rs_ne_en hwf, rw_ne_en hwf, hrw]
  simp [writesOf, hrise, hfall]

/-- A write cycle adds its byte's entry: enable falls with the lines at the byte (R171). -/
theorem writesOf_writeCycleEvents (lat : PinId → Level) (f : Bool) (b : Byte) :
    writesOf h lat (writeCycleEvents h f b) = [(rsLevel f, lowBits h b)] := by
  obtain ⟨lat', hrs, hrw, haddress⟩ := writesOf_address hwf lat f
  have hctrl := fun {p} => latchesAfter_masks_ctrl hwf hl lat' b (p := p)
  calc writesOf h lat (writeCycleEvents h f b)
      = writesOf h (latchesAfter lat' (Event.sc (setMaskOf h b) (clrMaskOf h b)))
          [Event.w h.enPin true, Event.w h.enPin false] := haddress _
    _ = [(latchesAfter lat' (Event.sc (setMaskOf h b) (clrMaskOf h b)) h.rsPin, lowBits h b)] :=
        writesOf_strobe hwf hl ((hctrl (by simp [ctrlList])).trans hrw) fun _ _ => latchesAfter_masks_data hwf hl lat' b
    _ = _ := by rw [hctrl (by simp [ctrlList]), hrs]

/-- A byte is a handshake and a write cycle (R176). -/
theorem writesOf_bytesEvents (bf : PinId) (f : Bool) (xs : List (Byte × Nat)) (lat : PinId → Level) :
    writesOf h lat (bytesEvents h bf f xs) = xs.map fun x => (rsLevel f, lowBits h x.1) := by
  induction xs generalizing lat with
  | nil => rfl
  | cons x xs ih =>
    rw [bytesEvents, byteEvents, writesOf_append, writesOf_append, writesOf_busyReadEvents hwf,
      writesOf_writeCycleEvents hwf hl, ih]
    rfl

end

/-- Settles O45: byte by byte, a handshake that adds nothing and a write cycle that adds its byte. -/
theorem writesListsEachByteOnce : Obligations.WritesListsEachByteOnce := fun _ _ bf f xs lat hwf hl _ =>
  ⟨writesOf_bytesEvents hwf hl bf f xs lat, writesOf_busyReadEvents hwf lat bf⟩

end Sys2Proof.Machine
